-- ==== Sys2Proof/Word.lean ====
section
/-! DEFINITION. The two value widths of CORE (00_scope.md R9, R10): 8-bit cells and 16-bit
addresses, pairs and pointers. Arithmetic on them wraps modulo the width. -/

namespace Sys2Proof

/-- A `u8`: a memory cell, an 8-bit register, an immediate, a displacement, a port number or a
port value (R9, R10). -/
abbrev Byte := BitVec 8

/-- A `u16`: a memory address, a register pair, SP, PC, IX, IY or a 16-bit immediate (R9, R10). -/
abbrev Word := BitVec 16

end Sys2Proof
end

