-- ==== Sys2Proof/Config.lean ====
section
/-! DEFINITION. What is fixed when one CORE is constructed (the variant, R2), and the one value
the spec leaves free (the byte a port read returns, R60, U3). -/

namespace Sys2Proof

/-- VARIANT (00_scope.md R2): which of the two instruction sets one CORE executes, "selected
once" at construction. V85 is the 8085-like set, VZ80 the Z80-like one. -/
inductive Variant where
  | v85
  | vz80
deriving DecidableEq, Repr

/-- The byte the device model returns for a port read that no listed answer settles: a FREE
VALUE (20_memory.md R60, "The value `PortIn` returns is unconstrained by CORE"; U3 "any value").
Its arguments are the number of port calls answered so far and the port, so that two reads of
one port may differ. It has no body: nothing can be proved about its values (log 4). -/
opaque Config.freePortByte : Nat → Byte → Byte

end Sys2Proof
end

