-- ==== Sys2Proof/Syntax.lean ====
section
/-! DEFINITION. The instructions of CORE as data: one constructor of `Instr` for each of the 82
rows of spec/opcode_table.json (30_encoding.md R78, R94), with the operands the row's fields
name (R71 to R81). Register codes are decoded into names, so code 6 (the memory operand, R73)
cannot stand where a register must, nor code 3 (AF, R75) in a PUSH or POP of a plain pair. -/

namespace Sys2Proof

/-- The seven general 8-bit registers (10_state.md R21; codes in 30_encoding.md R73). -/
inductive Reg8 where
  | b | c | d | e | h | l | a
deriving DecidableEq, Repr

/-- `rp[p]`: the 16-bit register operand of LD dd,nn, INC ss, DEC ss and ADD HL,ss (R74). -/
inductive Pair where
  | bc | de | hl | sp
deriving DecidableEq, Repr

/-- The second operand of ADD IX,pp and ADD IY,pp: code 2 names the index register itself (R74,
R161). -/
inductive IndexPair where
  | bc | de | xy | sp
deriving DecidableEq, Repr

/-- `rp2[q]` for q other than 3: the operand of PUSH qq and POP qq (R75, R263, R266). -/
inductive StackPair where
  | bc | de | hl
deriving DecidableEq, Repr

/-- XY: the index register the 0xDD or 0xFD byte selects (R77). -/
inductive IndexReg where
  | ix | iy
deriving DecidableEq, Repr

/-- The eight conditions of jumps, calls and returns (R76, R224). -/
inductive Cond where
  | nz | z | nc | c | po | pe | p | m
deriving DecidableEq, Repr

/-- The reason of a DecodeError (00_scope.md R14; 60_exceptions.md R281, R282). -/
inductive DecodeReason where
  /-- the bytes match no row of the variant's opcode table (R87, R281) -/
  | illegalOpcode
  /-- the memory-to-memory move pattern, 0xDD 0x76 or 0xFD 0x76 in VZ80 (R88, R282) -/
  | illegalOperand
deriving DecidableEq, Repr

/-- One instruction of CORE, decoded: D0's transient Instruction value (R7). `r`, `rd`, `rs` are
8-bit registers, `n` an 8-bit immediate or port number, `nn` a 16-bit immediate or address, `x`
the index register, `d` the displacement byte, `cc` a condition. -/
inductive Instr where
  -- 8-bit accumulator operations (41_alu_instructions.md section 2)
  /-- `ADD A,r` / `ADD r`, R120 -/
  | addR (r : Reg8)
  /-- `ADD A,(HL)` / `ADD M`, R121 -/
  | addAtHL
  /-- `ADD A,n` / `ADI n`, R122 -/
  | addN (n : Byte)
  /-- `ADD A,(XY+d)`, R123, VZ80 only -/
  | addAtXYd (x : IndexReg) (d : Byte)
  /-- `ADC A,r` / `ADC r`, R124 -/
  | adcR (r : Reg8)
  /-- `ADC A,(HL)` / `ADC M`, R125 -/
  | adcAtHL
  /-- `ADC A,n` / `ACI n`, R126 -/
  | adcN (n : Byte)
  /-- `ADC A,(XY+d)`, R127, VZ80 only -/
  | adcAtXYd (x : IndexReg) (d : Byte)
  /-- `SUB r`, R128 -/
  | subR (r : Reg8)
  /-- `SUB (HL)` / `SUB M`, R129 -/
  | subAtHL
  /-- `SUB n` / `SUI n`, R130 -/
  | subN (n : Byte)
  /-- `SUB (XY+d)`, R131, VZ80 only -/
  | subAtXYd (x : IndexReg) (d : Byte)
  /-- `SBC A,r` / `SBB r`, R132 -/
  | sbcR (r : Reg8)
  /-- `SBC A,(HL)` / `SBB M`, R133 -/
  | sbcAtHL
  /-- `SBC A,n` / `SBI n`, R134 -/
  | sbcN (n : Byte)
  /-- `SBC A,(XY+d)`, R135, VZ80 only -/
  | sbcAtXYd (x : IndexReg) (d : Byte)
  /-- `AND r` / `ANA r`, R136 -/
  | andR (r : Reg8)
  /-- `AND (HL)` / `ANA M`, R137 -/
  | andAtHL
  /-- `AND n` / `ANI n`, R138 -/
  | andN (n : Byte)
  /-- `AND (XY+d)`, R139, VZ80 only -/
  | andAtXYd (x : IndexReg) (d : Byte)
  /-- `XOR r` / `XRA r`, R140 -/
  | xorR (r : Reg8)
  /-- `XOR (HL)` / `XRA M`, R141 -/
  | xorAtHL
  /-- `XOR n` / `XRI n`, R142 -/
  | xorN (n : Byte)
  /-- `XOR (XY+d)`, R143, VZ80 only -/
  | xorAtXYd (x : IndexReg) (d : Byte)
  /-- `OR r` / `ORA r`, R144 -/
  | orR (r : Reg8)
  /-- `OR (HL)` / `ORA M`, R145 -/
  | orAtHL
  /-- `OR n` / `ORI n`, R146 -/
  | orN (n : Byte)
  /-- `OR (XY+d)`, R147, VZ80 only -/
  | orAtXYd (x : IndexReg) (d : Byte)
  /-- `CP r` / `CMP r`, R148 -/
  | cpR (r : Reg8)
  /-- `CP (HL)` / `CMP M`, R149 -/
  | cpAtHL
  /-- `CP n` / `CPI n`, R150 -/
  | cpN (n : Byte)
  /-- `CP (XY+d)`, R151, VZ80 only -/
  | cpAtXYd (x : IndexReg) (d : Byte)
  -- 8-bit increment and decrement (section 3)
  /-- `INC r` / `INR r`, R152 -/
  | incR (r : Reg8)
  /-- `INC (HL)` / `INR M`, R153 -/
  | incAtHL
  /-- `INC (XY+d)`, R154, VZ80 only -/
  | incAtXYd (x : IndexReg) (d : Byte)
  /-- `DEC r` / `DCR r`, R155 -/
  | decR (r : Reg8)
  /-- `DEC (HL)` / `DCR M`, R156 -/
  | decAtHL
  /-- `DEC (XY+d)`, R157, VZ80 only -/
  | decAtXYd (x : IndexReg) (d : Byte)
  -- 16-bit arithmetic (section 4)
  /-- `ADD HL,ss` / `DAD rp`, R160 -/
  | addHLSS (p : Pair)
  /-- `ADD XY,pp`, R161, VZ80 only -/
  | addXYPP (x : IndexReg) (p : IndexPair)
  /-- `INC ss` / `INX rp`, R162 -/
  | incSS (p : Pair)
  /-- `INC XY`, R163, VZ80 only -/
  | incXY (x : IndexReg)
  /-- `DEC ss` / `DCX rp`, R164 -/
  | decSS (p : Pair)
  /-- `DEC XY`, R165, VZ80 only -/
  | decXY (x : IndexReg)
  -- complement and decimal adjust (section 5)
  /-- `CPL` / `CMA`, R170 -/
  | cpl
  /-- `DAA`, R171 -/
  | daa
  -- moves, loads and stores (42_moves_addressing.md)
  /-- `LD r,r'` / `MOV r1,r2`, R187 -/
  | ldRR (rd : Reg8) (rs : Reg8)
  /-- `LD r,(HL)` / `MOV r,M`, R188 -/
  | ldRAtHL (r : Reg8)
  /-- `LD (HL),r` / `MOV M,r`, R189 -/
  | ldAtHLR (r : Reg8)
  /-- `LD r,n` / `MVI r,n`, R190 -/
  | ldRN (r : Reg8) (n : Byte)
  /-- `LD (HL),n` / `MVI M,n`, R191 -/
  | ldAtHLN (n : Byte)
  /-- `LD A,(BC)`, R192, VZ80 only -/
  | ldAAtBC
  /-- `LD A,(DE)`, R193, VZ80 only -/
  | ldAAtDE
  /-- `LD (BC),A`, R194, VZ80 only -/
  | ldAtBCA
  /-- `LD (DE),A`, R195, VZ80 only -/
  | ldAtDEA
  /-- `LD dd,nn` / `LXI rp,nn`, R196 -/
  | ldDDNN (p : Pair) (nn : Word)
  /-- `LD A,(nn)` / `LDA nn`, R197 -/
  | ldAAtNN (nn : Word)
  /-- `LD (nn),A` / `STA nn`, R198 -/
  | ldAtNNA (nn : Word)
  /-- `LD HL,(nn)` / `LHLD nn`, R199 -/
  | ldHLAtNN (nn : Word)
  /-- `LD (nn),HL` / `SHLD nn`, R200 -/
  | ldAtNNHL (nn : Word)
  /-- `LD r,(XY+d)`, R201, VZ80 only -/
  | ldRAtXYd (r : Reg8) (x : IndexReg) (d : Byte)
  /-- `LD (XY+d),r`, R202, VZ80 only -/
  | ldAtXYdR (x : IndexReg) (d : Byte) (r : Reg8)
  -- shadow exchange (42_moves_addressing.md section 6)
  /-- `EXSH`, R205, VZ80 only -/
  | exsh
  -- jumps, calls, returns, HALT (43_dispatch_control.md)
  /-- `JP nn` / `JMP nn`, R226 -/
  | jpNN (nn : Word)
  /-- `JP cc,nn` / `Jcc nn`, R227 -/
  | jpCCNN (cc : Cond) (nn : Word)
  /-- `CALL nn`, R228 -/
  | callNN (nn : Word)
  /-- `CALL cc,nn` / `Ccc nn`, R229 -/
  | callCCNN (cc : Cond) (nn : Word)
  /-- `RET`, R230 -/
  | ret
  /-- `RET cc` / `Rcc`, R231 -/
  | retCC (cc : Cond)
  /-- `HALT` / `HLT`, R232 -/
  | halt
  -- block transfer (44_block_transfer.md)
  /-- `LDI`, R251, VZ80 only -/
  | ldi
  /-- `LDD`, R252, VZ80 only -/
  | ldd
  /-- `LDIR`, R253, VZ80 only -/
  | ldir
  /-- `LDDR`, R254, VZ80 only -/
  | lddr
  -- stack (45_stack.md)
  /-- `PUSH qq` / `PUSH rp`, R263 -/
  | pushQQ (q : StackPair)
  /-- `PUSH AF` / `PUSH PSW`, R264 -/
  | pushAF
  /-- `POP AF` / `POP PSW`, R265 -/
  | popAF
  /-- `POP qq` / `POP rp`, R266 -/
  | popQQ (q : StackPair)
  /-- `PUSH XY`, R267, VZ80 only -/
  | pushXY (x : IndexReg)
  /-- `POP XY`, R268, VZ80 only -/
  | popXY (x : IndexReg)
  -- port input and output (46_io.md)
  /-- `IN A,(n)` / `IN n`, R270 -/
  | inAN (n : Byte)
  /-- `OUT (n),A` / `OUT n`, R271 -/
  | outNA (n : Byte)
deriving DecidableEq, Repr

end Sys2Proof
end

