-- ==== Sys2Proof/WellFormed.lean ====
section
/-! DEFINITION. Which instructions a variant has (30_encoding.md R78: "The opcode table of each
variant is exactly the rows of `opcode_table.json` whose `variants` list names the variant").
The operands need no check: their types admit exactly the codes the rows admit. -/

namespace Sys2Proof

/-- The `variants` column of the opcode table: whether the row of `i` is in the table of `v`. -/
def Instr.inTable (v : Variant) (i : Instr) : Bool :=
  match i with
  | .addR _ => true
  | .addAtHL => true
  | .addN _ => true
  | .addAtXYd _ _ => v == .vz80
  | .adcR _ => true
  | .adcAtHL => true
  | .adcN _ => true
  | .adcAtXYd _ _ => v == .vz80
  | .subR _ => true
  | .subAtHL => true
  | .subN _ => true
  | .subAtXYd _ _ => v == .vz80
  | .sbcR _ => true
  | .sbcAtHL => true
  | .sbcN _ => true
  | .sbcAtXYd _ _ => v == .vz80
  | .andR _ => true
  | .andAtHL => true
  | .andN _ => true
  | .andAtXYd _ _ => v == .vz80
  | .xorR _ => true
  | .xorAtHL => true
  | .xorN _ => true
  | .xorAtXYd _ _ => v == .vz80
  | .orR _ => true
  | .orAtHL => true
  | .orN _ => true
  | .orAtXYd _ _ => v == .vz80
  | .cpR _ => true
  | .cpAtHL => true
  | .cpN _ => true
  | .cpAtXYd _ _ => v == .vz80
  | .incR _ => true
  | .incAtHL => true
  | .incAtXYd _ _ => v == .vz80
  | .decR _ => true
  | .decAtHL => true
  | .decAtXYd _ _ => v == .vz80
  | .addHLSS _ => true
  | .addXYPP _ _ => v == .vz80
  | .incSS _ => true
  | .incXY _ => v == .vz80
  | .decSS _ => true
  | .decXY _ => v == .vz80
  | .cpl => true
  | .daa => true
  | .ldRR _ _ => true
  | .ldRAtHL _ => true
  | .ldAtHLR _ => true
  | .ldRN _ _ => true
  | .ldAtHLN _ => true
  | .ldAAtBC => v == .vz80
  | .ldAAtDE => v == .vz80
  | .ldAtBCA => v == .vz80
  | .ldAtDEA => v == .vz80
  | .ldDDNN _ _ => true
  | .ldAAtNN _ => true
  | .ldAtNNA _ => true
  | .ldHLAtNN _ => true
  | .ldAtNNHL _ => true
  | .ldRAtXYd _ _ _ => v == .vz80
  | .ldAtXYdR _ _ _ => v == .vz80
  | .exsh => v == .vz80
  | .jpNN _ => true
  | .jpCCNN _ _ => true
  | .callNN _ => true
  | .callCCNN _ _ => true
  | .ret => true
  | .retCC _ => true
  | .halt => true
  | .ldi => v == .vz80
  | .ldd => v == .vz80
  | .ldir => v == .vz80
  | .lddr => v == .vz80
  | .pushQQ _ => true
  | .pushAF => true
  | .popAF => true
  | .popQQ _ => true
  | .pushXY _ => v == .vz80
  | .popXY _ => v == .vz80
  | .inAN _ => true
  | .outNA _ => true

/-- An instruction is well formed for a variant when the variant's opcode table holds it. -/
abbrev WellFormed (v : Variant) (i : Instr) : Prop := i.inTable v = true

end Sys2Proof
end

