-- ==== Sys2Proof/Decode.lean ====
section
/-! DEFINITION. The opcode table as data, the decoder over it (30_encoding.md R70 to R94) and the
encoder. Every byte value is the spec's own adoption (D1). -/

namespace Sys2Proof

/-- `v[lo+w-1:lo]` of a byte, as a number (00_scope.md R10, 30_encoding.md R72). -/
def bitField (v : Byte) (lo w : Nat) : Nat := (v.toNat >>> lo) % 2 ^ w

/-- `hi : lo`, the `u16` with `hi` in bits 15..8 and `lo` in bits 7..0 (R10). -/
def joinBytes (hi lo : Byte) : Word := hi ++ lo

/-- `low8(w) = w[7:0]` (R11). -/
def low8 (w : Word) : Byte := w.extractLsb' 0 8

/-- `high8(w) = w[15:8]` (R11). -/
def high8 (w : Word) : Byte := w.extractLsb' 8 8

/-! ## Operand codes -/

/-- `r8[k]` (R73); code 6 is the memory operand, not a register. -/
def Reg8.ofCode : Nat → Option Reg8
  | 0 => some .b
  | 1 => some .c
  | 2 => some .d
  | 3 => some .e
  | 4 => some .h
  | 5 => some .l
  | 7 => some .a
  | _ => none

/-- The code of a register in `r8` (R73). -/
def Reg8.code : Reg8 → Byte
  | .b => 0
  | .c => 1
  | .d => 2
  | .e => 3
  | .h => 4
  | .l => 5
  | .a => 7

/-- `rp[p]` (R74), for a 2-bit code. -/
def Pair.ofCode : Nat → Pair
  | 0 => .bc
  | 1 => .de
  | 2 => .hl
  | _ => .sp

/-- The code of a 16-bit register in `rp` (R74). -/
def Pair.code : Pair → Byte
  | .bc => 0
  | .de => 1
  | .hl => 2
  | .sp => 3

/-- `rp[p]` after an index byte (R74), for a 2-bit code. -/
def IndexPair.ofCode : Nat → IndexPair
  | 0 => .bc
  | 1 => .de
  | 2 => .xy
  | _ => .sp

/-- The code of the second operand of ADD IX,pp and ADD IY,pp (R74). -/
def IndexPair.code : IndexPair → Byte
  | .bc => 0
  | .de => 1
  | .xy => 2
  | .sp => 3

/-- `rp2[q]` (R75); code 3 is AF, which has rows of its own. -/
def StackPair.ofCode : Nat → Option StackPair
  | 0 => some .bc
  | 1 => some .de
  | 2 => some .hl
  | _ => none

/-- The code of a pair in `rp2` (R75). -/
def StackPair.code : StackPair → Byte
  | .bc => 0
  | .de => 1
  | .hl => 2

/-- The index register bit 5 of the first byte selects (R77): 0 is IX, 1 is IY. -/
def IndexReg.ofCode : Nat → IndexReg
  | 0 => .ix
  | _ => .iy

/-- The first byte of an indexed instruction: 0xDD for IX, 0xFD for IY (R77). -/
def IndexReg.firstByte : IndexReg → Byte
  | .ix => 0xDD
  | .iy => 0xFD

/-- The condition code `cc` (R76), for a 3-bit code. -/
def Cond.ofCode : Nat → Cond
  | 0 => .nz
  | 1 => .z
  | 2 => .nc
  | 3 => .c
  | 4 => .po
  | 5 => .pe
  | 6 => .p
  | _ => .m

/-- The code of a condition (R76). -/
def Cond.code : Cond → Byte
  | .nz => 0
  | .z => 1
  | .nc => 2
  | .c => 3
  | .po => 4
  | .pe => 5
  | .p => 6
  | .m => 7

/-! ## The opcode table -/

/-- One row of spec/opcode_table.json (R94). A row matches when `number &&& mask = pattern`, the
number being b0 for an unprefixed row and b0 : b1, b0 the high byte, for a prefixed one; `build`
reads the operand fields and answers `none` exactly where a constraint of the row (`ddd != 6`,
`sss != 6`, `qq != 3`) fails. -/
structure Row where
  mnemonic : String
  inV85 : Bool
  pattern : Nat
  mask : Nat
  build : Byte → Byte → Byte → Option Instr

/-- The 8-bit ALU rows with a register, (HL) or immediate operand. -/
def accRows : List Row :=
  [
    ⟨"ADD_A_r", true, 0x80, 0xF8, fun b0 _ _ =>
      (Reg8.ofCode (bitField b0 0 3)).map fun r => .addR r⟩,
    ⟨"ADD_A__HL", true, 0x86, 0xFF, fun _ _ _ =>
      some .addAtHL⟩,
    ⟨"ADD_A_n", true, 0xC6, 0xFF, fun _ b1 _ =>
      some (.addN b1)⟩,
    ⟨"ADC_A_r", true, 0x88, 0xF8, fun b0 _ _ =>
      (Reg8.ofCode (bitField b0 0 3)).map fun r => .adcR r⟩,
    ⟨"ADC_A__HL", true, 0x8E, 0xFF, fun _ _ _ =>
      some .adcAtHL⟩,
    ⟨"ADC_A_n", true, 0xCE, 0xFF, fun _ b1 _ =>
      some (.adcN b1)⟩,
    ⟨"SUB_r", true, 0x90, 0xF8, fun b0 _ _ =>
      (Reg8.ofCode (bitField b0 0 3)).map fun r => .subR r⟩,
    ⟨"SUB__HL", true, 0x96, 0xFF, fun _ _ _ =>
      some .subAtHL⟩
  ] ++
  [
    ⟨"SUB_n", true, 0xD6, 0xFF, fun _ b1 _ =>
      some (.subN b1)⟩,
    ⟨"SBC_A_r", true, 0x98, 0xF8, fun b0 _ _ =>
      (Reg8.ofCode (bitField b0 0 3)).map fun r => .sbcR r⟩,
    ⟨"SBC_A__HL", true, 0x9E, 0xFF, fun _ _ _ =>
      some .sbcAtHL⟩,
    ⟨"SBC_A_n", true, 0xDE, 0xFF, fun _ b1 _ =>
      some (.sbcN b1)⟩,
    ⟨"AND_r", true, 0xA0, 0xF8, fun b0 _ _ =>
      (Reg8.ofCode (bitField b0 0 3)).map fun r => .andR r⟩,
    ⟨"AND__HL", true, 0xA6, 0xFF, fun _ _ _ =>
      some .andAtHL⟩,
    ⟨"AND_n", true, 0xE6, 0xFF, fun _ b1 _ =>
      some (.andN b1)⟩,
    ⟨"XOR_r", true, 0xA8, 0xF8, fun b0 _ _ =>
      (Reg8.ofCode (bitField b0 0 3)).map fun r => .xorR r⟩
  ] ++
  [
    ⟨"XOR__HL", true, 0xAE, 0xFF, fun _ _ _ =>
      some .xorAtHL⟩,
    ⟨"XOR_n", true, 0xEE, 0xFF, fun _ b1 _ =>
      some (.xorN b1)⟩,
    ⟨"OR_r", true, 0xB0, 0xF8, fun b0 _ _ =>
      (Reg8.ofCode (bitField b0 0 3)).map fun r => .orR r⟩,
    ⟨"OR__HL", true, 0xB6, 0xFF, fun _ _ _ =>
      some .orAtHL⟩,
    ⟨"OR_n", true, 0xF6, 0xFF, fun _ b1 _ =>
      some (.orN b1)⟩,
    ⟨"CP_r", true, 0xB8, 0xF8, fun b0 _ _ =>
      (Reg8.ofCode (bitField b0 0 3)).map fun r => .cpR r⟩,
    ⟨"CP__HL", true, 0xBE, 0xFF, fun _ _ _ =>
      some .cpAtHL⟩,
    ⟨"CP_n", true, 0xFE, 0xFF, fun _ b1 _ =>
      some (.cpN b1)⟩
  ]

/-- 8-bit INC and DEC, 16-bit arithmetic, CPL and DAA, unprefixed. -/
def incArithRows : List Row :=
  [
    ⟨"INC_r", true, 0x04, 0xC7, fun b0 _ _ =>
      (Reg8.ofCode (bitField b0 3 3)).map fun r => .incR r⟩,
    ⟨"INC__HL", true, 0x34, 0xFF, fun _ _ _ =>
      some .incAtHL⟩,
    ⟨"DEC_r", true, 0x05, 0xC7, fun b0 _ _ =>
      (Reg8.ofCode (bitField b0 3 3)).map fun r => .decR r⟩,
    ⟨"DEC__HL", true, 0x35, 0xFF, fun _ _ _ =>
      some .decAtHL⟩,
    ⟨"ADD_HL_ss", true, 0x09, 0xCF, fun b0 _ _ =>
      some (.addHLSS (Pair.ofCode (bitField b0 4 2)))⟩,
    ⟨"INC_ss", true, 0x03, 0xCF, fun b0 _ _ =>
      some (.incSS (Pair.ofCode (bitField b0 4 2)))⟩,
    ⟨"DEC_ss", true, 0x0B, 0xCF, fun b0 _ _ =>
      some (.decSS (Pair.ofCode (bitField b0 4 2)))⟩,
    ⟨"CPL", true, 0x2F, 0xFF, fun _ _ _ =>
      some .cpl⟩
  ] ++
  [
    ⟨"DAA", true, 0x27, 0xFF, fun _ _ _ =>
      some .daa⟩
  ]

/-- Moves, loads, stores and the shadow exchange, unprefixed. -/
def moveRows : List Row :=
  [
    ⟨"LD_r_r", true, 0x40, 0xC0, fun b0 _ _ =>
      (Reg8.ofCode (bitField b0 3 3)).bind fun rd => (Reg8.ofCode (bitField b0 0 3)).map fun rs => .ldRR rd rs⟩,
    ⟨"LD_r__HL", true, 0x46, 0xC7, fun b0 _ _ =>
      (Reg8.ofCode (bitField b0 3 3)).map fun r => .ldRAtHL r⟩,
    ⟨"LD__HL__r", true, 0x70, 0xF8, fun b0 _ _ =>
      (Reg8.ofCode (bitField b0 0 3)).map fun r => .ldAtHLR r⟩,
    ⟨"LD_r_n", true, 0x06, 0xC7, fun b0 b1 _ =>
      (Reg8.ofCode (bitField b0 3 3)).map fun r => .ldRN r b1⟩,
    ⟨"LD__HL__n", true, 0x36, 0xFF, fun _ b1 _ =>
      some (.ldAtHLN b1)⟩,
    ⟨"LD_A__BC", false, 0x0A, 0xFF, fun _ _ _ =>
      some .ldAAtBC⟩,
    ⟨"LD_A__DE", false, 0x1A, 0xFF, fun _ _ _ =>
      some .ldAAtDE⟩,
    ⟨"LD__BC__A", false, 0x02, 0xFF, fun _ _ _ =>
      some .ldAtBCA⟩
  ] ++
  [
    ⟨"LD__DE__A", false, 0x12, 0xFF, fun _ _ _ =>
      some .ldAtDEA⟩,
    ⟨"LD_dd_nn", true, 0x01, 0xCF, fun b0 b1 b2 =>
      some (.ldDDNN (Pair.ofCode (bitField b0 4 2)) (joinBytes b2 b1))⟩,
    ⟨"LD_A__nn", true, 0x3A, 0xFF, fun _ b1 b2 =>
      some (.ldAAtNN (joinBytes b2 b1))⟩,
    ⟨"LD__nn__A", true, 0x32, 0xFF, fun _ b1 b2 =>
      some (.ldAtNNA (joinBytes b2 b1))⟩,
    ⟨"LD_HL__nn", true, 0x2A, 0xFF, fun _ b1 b2 =>
      some (.ldHLAtNN (joinBytes b2 b1))⟩,
    ⟨"LD__nn__HL", true, 0x22, 0xFF, fun _ b1 b2 =>
      some (.ldAtNNHL (joinBytes b2 b1))⟩,
    ⟨"EXSH", false, 0xD9, 0xFF, fun _ _ _ =>
      some .exsh⟩
  ]

/-- Control transfer, HALT, stack and ports, unprefixed. -/
def controlRows : List Row :=
  [
    ⟨"JP_nn", true, 0xC3, 0xFF, fun _ b1 b2 =>
      some (.jpNN (joinBytes b2 b1))⟩,
    ⟨"JP_cc_nn", true, 0xC2, 0xC7, fun b0 b1 b2 =>
      some (.jpCCNN (Cond.ofCode (bitField b0 3 3)) (joinBytes b2 b1))⟩,
    ⟨"CALL_nn", true, 0xCD, 0xFF, fun _ b1 b2 =>
      some (.callNN (joinBytes b2 b1))⟩,
    ⟨"CALL_cc_nn", true, 0xC4, 0xC7, fun b0 b1 b2 =>
      some (.callCCNN (Cond.ofCode (bitField b0 3 3)) (joinBytes b2 b1))⟩,
    ⟨"RET", true, 0xC9, 0xFF, fun _ _ _ =>
      some .ret⟩,
    ⟨"RET_cc", true, 0xC0, 0xC7, fun b0 _ _ =>
      some (.retCC (Cond.ofCode (bitField b0 3 3)))⟩,
    ⟨"HALT", true, 0x76, 0xFF, fun _ _ _ =>
      some .halt⟩,
    ⟨"PUSH_qq", true, 0xC5, 0xCF, fun b0 _ _ =>
      (StackPair.ofCode (bitField b0 4 2)).map fun q => .pushQQ q⟩
  ] ++
  [
    ⟨"PUSH_AF", true, 0xF5, 0xFF, fun _ _ _ =>
      some .pushAF⟩,
    ⟨"POP_AF", true, 0xF1, 0xFF, fun _ _ _ =>
      some .popAF⟩,
    ⟨"POP_qq", true, 0xC1, 0xCF, fun b0 _ _ =>
      (StackPair.ofCode (bitField b0 4 2)).map fun q => .popQQ q⟩,
    ⟨"IN_A__n", true, 0xDB, 0xFF, fun _ b1 _ =>
      some (.inAN b1)⟩,
    ⟨"OUT__n__A", true, 0xD3, 0xFF, fun _ b1 _ =>
      some (.outNA b1)⟩
  ]

/-- The rows after 0xDD (XY = IX) or 0xFD (XY = IY) (R85). -/
def indexedRows : List Row :=
  [
    ⟨"ADD_A__XY+d", false, 0xDD86, 0xDFFF, fun b0 _ b2 =>
      some (.addAtXYd (IndexReg.ofCode (bitField b0 5 1)) b2)⟩,
    ⟨"ADC_A__XY+d", false, 0xDD8E, 0xDFFF, fun b0 _ b2 =>
      some (.adcAtXYd (IndexReg.ofCode (bitField b0 5 1)) b2)⟩,
    ⟨"SUB__XY+d", false, 0xDD96, 0xDFFF, fun b0 _ b2 =>
      some (.subAtXYd (IndexReg.ofCode (bitField b0 5 1)) b2)⟩,
    ⟨"SBC_A__XY+d", false, 0xDD9E, 0xDFFF, fun b0 _ b2 =>
      some (.sbcAtXYd (IndexReg.ofCode (bitField b0 5 1)) b2)⟩,
    ⟨"AND__XY+d", false, 0xDDA6, 0xDFFF, fun b0 _ b2 =>
      some (.andAtXYd (IndexReg.ofCode (bitField b0 5 1)) b2)⟩,
    ⟨"XOR__XY+d", false, 0xDDAE, 0xDFFF, fun b0 _ b2 =>
      some (.xorAtXYd (IndexReg.ofCode (bitField b0 5 1)) b2)⟩,
    ⟨"OR__XY+d", false, 0xDDB6, 0xDFFF, fun b0 _ b2 =>
      some (.orAtXYd (IndexReg.ofCode (bitField b0 5 1)) b2)⟩,
    ⟨"CP__XY+d", false, 0xDDBE, 0xDFFF, fun b0 _ b2 =>
      some (.cpAtXYd (IndexReg.ofCode (bitField b0 5 1)) b2)⟩
  ] ++
  [
    ⟨"INC__XY+d", false, 0xDD34, 0xDFFF, fun b0 _ b2 =>
      some (.incAtXYd (IndexReg.ofCode (bitField b0 5 1)) b2)⟩,
    ⟨"DEC__XY+d", false, 0xDD35, 0xDFFF, fun b0 _ b2 =>
      some (.decAtXYd (IndexReg.ofCode (bitField b0 5 1)) b2)⟩,
    ⟨"ADD_XY_pp", false, 0xDD09, 0xDFCF, fun b0 b1 _ =>
      some (.addXYPP (IndexReg.ofCode (bitField b0 5 1)) (IndexPair.ofCode (bitField b1 4 2)))⟩,
    ⟨"INC_XY", false, 0xDD23, 0xDFFF, fun b0 _ _ =>
      some (.incXY (IndexReg.ofCode (bitField b0 5 1)))⟩,
    ⟨"DEC_XY", false, 0xDD2B, 0xDFFF, fun b0 _ _ =>
      some (.decXY (IndexReg.ofCode (bitField b0 5 1)))⟩,
    ⟨"LD_r__XY+d", false, 0xDD46, 0xDFC7, fun b0 b1 b2 =>
      (Reg8.ofCode (bitField b1 3 3)).map fun r => .ldRAtXYd r (IndexReg.ofCode (bitField b0 5 1)) b2⟩,
    ⟨"LD__XY+d__r", false, 0xDD70, 0xDFF8, fun b0 b1 b2 =>
      (Reg8.ofCode (bitField b1 0 3)).map fun r => .ldAtXYdR (IndexReg.ofCode (bitField b0 5 1)) b2 r⟩,
    ⟨"PUSH_XY", false, 0xDDE5, 0xDFFF, fun b0 _ _ =>
      some (.pushXY (IndexReg.ofCode (bitField b0 5 1)))⟩
  ] ++
  [
    ⟨"POP_XY", false, 0xDDE1, 0xDFFF, fun b0 _ _ =>
      some (.popXY (IndexReg.ofCode (bitField b0 5 1)))⟩
  ]

/-- The rows after 0xED (R86). -/
def blockRows : List Row :=
  [
    ⟨"LDI", false, 0xEDA0, 0xFFFF, fun _ _ _ =>
      some .ldi⟩,
    ⟨"LDD", false, 0xEDA8, 0xFFFF, fun _ _ _ =>
      some .ldd⟩,
    ⟨"LDIR", false, 0xEDB0, 0xFFFF, fun _ _ _ =>
      some .ldir⟩,
    ⟨"LDDR", false, 0xEDB8, 0xFFFF, fun _ _ _ =>
      some .lddr⟩
  ]

/-- The unprefixed rows (R83, R84). -/
def oneByteRows : List Row := accRows ++ incArithRows ++ moveRows ++ controlRows

/-- The prefixed rows (R85, R86). -/
def twoByteRows : List Row := indexedRows ++ blockRows

/-! ## Decoding -/

/-- The three VZ80 prefix bytes (R77). -/
def isPrefixByte (b : Byte) : Bool := b == 0xDD || b == 0xFD || b == 0xED

/-- The row's instruction when the variant has the row and the row matches (R82, R94). -/
def Row.decode (v : Variant) (number : Nat) (b0 b1 b2 : Byte) (row : Row) : Option Instr :=
  if (row.inV85 || v == .vz80) && (number &&& row.mask) == row.pattern then row.build b0 b1 b2
  else none

/-- The two steps of R82: a VZ80 prefix byte selects the prefixed rows, looked up by b0 : b1; any
other first byte is looked up by itself. -/
def lookup (v : Variant) (b0 b1 b2 : Byte) : Option Instr :=
  if v == .vz80 && isPrefixByte b0 then
    twoByteRows.findSome? (Row.decode v (b0.toNat * 256 + b1.toNat) b0 b1 b2)
  else
    oneByteRows.findSome? (Row.decode v b0.toNat b0 b1 b2)

/-- The byte pairs that spell a move between two memory operands (R88): 0xDD or 0xFD, then 0x76,
in VZ80. -/
def isMemoryToMemoryMove (v : Variant) (b0 b1 : Byte) : Bool :=
  v == .vz80 && (b0 == 0xDD || b0 == 0xFD) && b1 == 0x76

/-- DECODE (R82, R87, R88, R221): the instruction whose first three bytes are b0, b1, b2 (those
beyond its length are not looked at), or the reason why there is none. -/
def decode (v : Variant) (b0 b1 b2 : Byte) : Except DecodeReason Instr :=
  match lookup v b0 b1 b2 with
  | some i => .ok i
  | none => .error (if isMemoryToMemoryMove v b0 b1 then .illegalOperand else .illegalOpcode)

/-- The total byte length of an instruction (R70, the `length` column of the opcode table). -/
def Instr.length (i : Instr) : Nat :=
  match i with
  | .addR _ => 1
  | .addAtHL => 1
  | .addN _ => 2
  | .addAtXYd _ _ => 3
  | .adcR _ => 1
  | .adcAtHL => 1
  | .adcN _ => 2
  | .adcAtXYd _ _ => 3
  | .subR _ => 1
  | .subAtHL => 1
  | .subN _ => 2
  | .subAtXYd _ _ => 3
  | .sbcR _ => 1
  | .sbcAtHL => 1
  | .sbcN _ => 2
  | .sbcAtXYd _ _ => 3
  | .andR _ => 1
  | .andAtHL => 1
  | .andN _ => 2
  | .andAtXYd _ _ => 3
  | .xorR _ => 1
  | .xorAtHL => 1
  | .xorN _ => 2
  | .xorAtXYd _ _ => 3
  | .orR _ => 1
  | .orAtHL => 1
  | .orN _ => 2
  | .orAtXYd _ _ => 3
  | .cpR _ => 1
  | .cpAtHL => 1
  | .cpN _ => 2
  | .cpAtXYd _ _ => 3
  | .incR _ => 1
  | .incAtHL => 1
  | .incAtXYd _ _ => 3
  | .decR _ => 1
  | .decAtHL => 1
  | .decAtXYd _ _ => 3
  | .addHLSS _ => 1
  | .addXYPP _ _ => 2
  | .incSS _ => 1
  | .incXY _ => 2
  | .decSS _ => 1
  | .decXY _ => 2
  | .cpl => 1
  | .daa => 1
  | .ldRR _ _ => 1
  | .ldRAtHL _ => 1
  | .ldAtHLR _ => 1
  | .ldRN _ _ => 2
  | .ldAtHLN _ => 2
  | .ldAAtBC => 1
  | .ldAAtDE => 1
  | .ldAtBCA => 1
  | .ldAtDEA => 1
  | .ldDDNN _ _ => 3
  | .ldAAtNN _ => 3
  | .ldAtNNA _ => 3
  | .ldHLAtNN _ => 3
  | .ldAtNNHL _ => 3
  | .ldRAtXYd _ _ _ => 3
  | .ldAtXYdR _ _ _ => 3
  | .exsh => 1
  | .jpNN _ => 3
  | .jpCCNN _ _ => 3
  | .callNN _ => 3
  | .callCCNN _ _ => 3
  | .ret => 1
  | .retCC _ => 1
  | .halt => 1
  | .ldi => 2
  | .ldd => 2
  | .ldir => 2
  | .lddr => 2
  | .pushQQ _ => 1
  | .pushAF => 1
  | .popAF => 1
  | .popQQ _ => 1
  | .pushXY _ => 2
  | .popXY _ => 2
  | .inAN _ => 2
  | .outNA _ => 2

/-! ## Encoding -/

/-- A 3-bit code in bits 5..3 of an opcode byte (R72, field `y`). -/
def fieldY (k : Byte) : Byte := k <<< 3

/-- A 2-bit code in bits 5..4 of an opcode byte (R72, field `p`). -/
def fieldP (k : Byte) : Byte := k <<< 4

/-- The bytes of an instruction in increasing address order (R71 to R86): formats F1 to F5. -/
def encode (i : Instr) : List Byte :=
  match i with
  | .addR r => [0x80 ||| r.code]
  | .addAtHL => [0x86]
  | .addN n => [0xC6, n]
  | .addAtXYd x d => [x.firstByte, 0x86, d]
  | .adcR r => [0x88 ||| r.code]
  | .adcAtHL => [0x8E]
  | .adcN n => [0xCE, n]
  | .adcAtXYd x d => [x.firstByte, 0x8E, d]
  | .subR r => [0x90 ||| r.code]
  | .subAtHL => [0x96]
  | .subN n => [0xD6, n]
  | .subAtXYd x d => [x.firstByte, 0x96, d]
  | .sbcR r => [0x98 ||| r.code]
  | .sbcAtHL => [0x9E]
  | .sbcN n => [0xDE, n]
  | .sbcAtXYd x d => [x.firstByte, 0x9E, d]
  | .andR r => [0xA0 ||| r.code]
  | .andAtHL => [0xA6]
  | .andN n => [0xE6, n]
  | .andAtXYd x d => [x.firstByte, 0xA6, d]
  | .xorR r => [0xA8 ||| r.code]
  | .xorAtHL => [0xAE]
  | .xorN n => [0xEE, n]
  | .xorAtXYd x d => [x.firstByte, 0xAE, d]
  | .orR r => [0xB0 ||| r.code]
  | .orAtHL => [0xB6]
  | .orN n => [0xF6, n]
  | .orAtXYd x d => [x.firstByte, 0xB6, d]
  | .cpR r => [0xB8 ||| r.code]
  | .cpAtHL => [0xBE]
  | .cpN n => [0xFE, n]
  | .cpAtXYd x d => [x.firstByte, 0xBE, d]
  | .incR r => [0x04 ||| fieldY r.code]
  | .incAtHL => [0x34]
  | .incAtXYd x d => [x.firstByte, 0x34, d]
  | .decR r => [0x05 ||| fieldY r.code]
  | .decAtHL => [0x35]
  | .decAtXYd x d => [x.firstByte, 0x35, d]
  | .addHLSS p => [0x09 ||| fieldP p.code]
  | .addXYPP x p => [x.firstByte, 0x09 ||| fieldP p.code]
  | .incSS p => [0x03 ||| fieldP p.code]
  | .incXY x => [x.firstByte, 0x23]
  | .decSS p => [0x0B ||| fieldP p.code]
  | .decXY x => [x.firstByte, 0x2B]
  | .cpl => [0x2F]
  | .daa => [0x27]
  | .ldRR rd rs => [0x40 ||| fieldY rd.code ||| rs.code]
  | .ldRAtHL r => [0x46 ||| fieldY r.code]
  | .ldAtHLR r => [0x70 ||| r.code]
  | .ldRN r n => [0x06 ||| fieldY r.code, n]
  | .ldAtHLN n => [0x36, n]
  | .ldAAtBC => [0x0A]
  | .ldAAtDE => [0x1A]
  | .ldAtBCA => [0x02]
  | .ldAtDEA => [0x12]
  | .ldDDNN p nn => [0x01 ||| fieldP p.code, low8 nn, high8 nn]
  | .ldAAtNN nn => [0x3A, low8 nn, high8 nn]
  | .ldAtNNA nn => [0x32, low8 nn, high8 nn]
  | .ldHLAtNN nn => [0x2A, low8 nn, high8 nn]
  | .ldAtNNHL nn => [0x22, low8 nn, high8 nn]
  | .ldRAtXYd r x d => [x.firstByte, 0x46 ||| fieldY r.code, d]
  | .ldAtXYdR x d r => [x.firstByte, 0x70 ||| r.code, d]
  | .exsh => [0xD9]
  | .jpNN nn => [0xC3, low8 nn, high8 nn]
  | .jpCCNN cc nn => [0xC2 ||| fieldY cc.code, low8 nn, high8 nn]
  | .callNN nn => [0xCD, low8 nn, high8 nn]
  | .callCCNN cc nn => [0xC4 ||| fieldY cc.code, low8 nn, high8 nn]
  | .ret => [0xC9]
  | .retCC cc => [0xC0 ||| fieldY cc.code]
  | .halt => [0x76]
  | .ldi => [0xED, 0xA0]
  | .ldd => [0xED, 0xA8]
  | .ldir => [0xED, 0xB0]
  | .lddr => [0xED, 0xB8]
  | .pushQQ q => [0xC5 ||| fieldP q.code]
  | .pushAF => [0xF5]
  | .popAF => [0xF1]
  | .popQQ q => [0xC1 ||| fieldP q.code]
  | .pushXY x => [x.firstByte, 0xE5]
  | .popXY x => [x.firstByte, 0xE1]
  | .inAN n => [0xDB, n]
  | .outNA n => [0xD3, n]

/-! ## The host's reading of a table word -/

/-- The first three bytes of an instruction whose bits are `w`, numbered as
spec/opcode_table.json numbers them, the bits above `nbits` being 0. An unprefixed row numbers
b0 from bit 0; a prefixed row numbers b0 : b1 with b0 the HIGH byte (R94), so where bits 15..8 and
7..0 spell a prefixed row they are b0 and b1. No first byte of a longer unprefixed instruction is
the second byte of such a row, so the two readings never compete (log 9). -/
def tableBytes (nbits w : Nat) : Byte × Byte × Byte :=
  let u := w % 2 ^ nbits
  let first := BitVec.ofNat 8 u
  let second := BitVec.ofNat 8 (u >>> 8)
  let third := BitVec.ofNat 8 (u >>> 16)
  if isPrefixByte second && (lookup .vz80 second first third).isSome then (second, first, third)
  else (first, second, third)

/-- What the decoder reads from a word of the opcode table, in VZ80, whose table has every row. -/
def decodeTableWord (nbits w : Nat) : Option Instr :=
  match tableBytes nbits w with
  | (b0, b1, b2) =>
    match decode .vz80 b0 b1 b2 with
    | .ok i => some i
    | .error _ => none

end Sys2Proof
end

