-- ==== Sys2Proof/Machine/State.lean ====
section
/-! DEFINITION. The state of one CORE (10_state.md R20 to R38) as plain data, the reasons a step
can stop, and the state right after construction. -/

namespace Sys2Proof.Machine

/-- The seven general 8-bit registers and F (R21, R28). The shadow bank holds the same eight
cells (R27). -/
structure Bank where
  a : Byte
  f : Byte
  b : Byte
  c : Byte
  d : Byte
  e : Byte
  h : Byte
  l : Byte
deriving DecidableEq, Repr

/-- RUN, the one piece of control state (R34). -/
inductive RunState where
  | running
  | halted
deriving DecidableEq, Repr

/-- One answer of the external device model to a port call (20_memory.md R60, R61). -/
inductive PortReply where
  /-- the call succeeds; a port read returns `v` (a port write has no use for it) -/
  | ok (v : Byte)
  /-- the call fails with the opaque value `e` (R61) -/
  | failed (e : Nat)
  /-- the call never returns (R61, U5) -/
  | blocked
deriving DecidableEq, Repr

/-- One completed port call, as the device model sees it (R60, U6). -/
inductive PortEvent where
  | input (port value : Byte)
  | output (port value : Byte)
deriving DecidableEq, Repr

/-- Mem (20_memory.md R50): the cells that do not hold the unlisted byte, by rising address. -/
abbrev Memory := List Host.Cell

/-- What a cell no entry lists holds: memory is "zero-initialized unless pre-loaded" (R50). -/
def Memory.unlistedByte : Byte := 0x00

/-- Strictly rising addresses from `lo` on, all in the 65,536-byte space, none listed at the
unlisted byte. -/
def Memory.wfFrom (lo : Nat) : Memory → Bool
  | [] => true
  | (k, v) :: m => decide (lo ≤ k) && decide (k < 65536) && v != Memory.unlistedByte && wfFrom (k + 1) m

/-- The canonical form of memory: equal memories are equal lists. -/
def Memory.wf (m : Memory) : Bool := Memory.wfFrom 0 m

/-- The complete state of one CORE instance (R20), and four fields of the model's own. -/
structure State where
  /-- VARIANT (R2): a constant of the machine, carried here so that one model has both values;
  no step changes it. The model's own field (log 1). -/
  variant : Variant
  /-- A, F, B, C, D, E, H, L (R21, R28) -/
  main : Bank
  /-- A', F', B', C', D', E', H', L' (R27), VZ80 only -/
  shadow : Bank
  /-- the stack pointer (R24) -/
  sp : Word
  /-- the program counter (R25) -/
  pc : Word
  /-- index register IX (R26), VZ80 only -/
  ix : Word
  /-- index register IY (R26), VZ80 only -/
  iy : Word
  /-- RUN (R34) -/
  run : RunState
  /-- Mem (R50) -/
  mem : Memory
  /-- the device model's coming answers, the next one first (R60): an input of the machine, held
  as the model's own field (log 4) -/
  portReplies : List PortReply
  /-- how many port calls the device model has answered; it makes the free values of two port
  reads independent. The model's own field (log 4). -/
  portCalls : Nat
  /-- the port calls that completed, the newest first (U6). The model's own field; nothing reads
  it (log 5). -/
  portTrace : List PortEvent
deriving DecidableEq, Repr

/-- Why a step ends without a next state. Each leaves the machine as it was before the step
(60_exceptions.md R283, R285, R298). -/
inductive Fault where
  /-- DecodeError (R281, R282): raised by `step` when the bytes at PC are no instruction of the
  variant. The spec describes it, so it is neither safe nor unsafe: it is what the machine does. -/
  | decodeError (reason : DecodeReason)
  /-- PortFailure(e) (R61, R285): raised by IN and OUT when the device model's answer is a
  failure. The spec describes it. -/
  | portFailure (e : Nat)
  /-- A port call that never returns (R285, U5): raised by IN and OUT when the device model
  blocks; the spec calls the step stuck. Safe: nothing is claimed of what follows (log 7). -/
  | portBlocked
deriving DecidableEq, Repr

/-- Why the model gives a step no meaning. -/
inductive Refusal where
  /-- Raised by `exec` alone, for an instruction whose arm has no meaning yet; no arm is left so.
  Safe: the model stops. -/
  | notModelled (mnemonic : String)
deriving DecidableEq, Repr

/-- What one step, or one instruction's meaning, ends in. -/
abbrev StepResult := Host.Outcome State Fault Refusal

/-- Eight cells at 0x00: both banks after construction and reset (R38). -/
def Bank.zero : Bank :=
  { a := 0x00, f := 0x00, b := 0x00, c := 0x00, d := 0x00, e := 0x00, h := 0x00, l := 0x00 }

/-- The machine right after construction with no image (R38, R310): every register 0, RUNNING,
memory all 0x00, entry point 0x0000. The variant named is VZ80, whose opcode table holds every
row (DESIGN CHOICE, log 1); no device answers are listed (DESIGN CHOICE, log 4). -/
def State.reset : State :=
  { variant := .vz80
    main := Bank.zero
    shadow := Bank.zero
    sp := 0x0000
    pc := 0x0000
    ix := 0x0000
    iy := 0x0000
    run := .running
    mem := []
    portReplies := []
    portCalls := 0
    portTrace := [] }

end Sys2Proof.Machine
end

