-- ==== Sys2Proof/Machine/Ops.lean ====
section
/-! DEFINITION. The named operations over memory, registers, stack and ports that the meanings
share. -/

namespace Sys2Proof.Machine

/-! ## Memory cells (20_memory.md R50 to R54) -/

/-- The byte at an address. -/
def Memory.readAt : Memory → Nat → Byte
  | [], _ => Memory.unlistedByte
  | (k, v) :: m, a => if k = a then v else readAt m a

/-- Memory without any entry for an address. -/
def Memory.eraseAt : Memory → Nat → Memory
  | [], _ => []
  | (k, v) :: m, a => if k = a then eraseAt m a else (k, v) :: eraseAt m a

/-- An entry put before the first one with a higher address. -/
def Memory.insertAt : Memory → Nat → Byte → Memory
  | [], a, v => [(a, v)]
  | (k, w) :: m, a, v => if a < k then (a, v) :: (k, w) :: m else (k, w) :: insertAt m a v

/-- Write one byte, keeping the canonical form: writing the unlisted byte removes the entry. -/
def Memory.writeAt (m : Memory) (a : Nat) (v : Byte) : Memory :=
  if v = Memory.unlistedByte then m.eraseAt a else (m.eraseAt a).insertAt a v

/-- `MemRead(addr, 1)` (R51). -/
def State.read8 (s : State) (addr : Word) : Byte := s.mem.readAt addr.toNat

/-- `MemWrite(addr, 1, v)` (R52). -/
def State.write8 (s : State) (addr : Word) (v : Byte) : State :=
  { s with mem := s.mem.writeAt addr.toNat v }

/-- `MemRead(addr, 2)` (R53): low byte at `addr`, high byte at `addr + 1`, modulo 65,536. -/
def State.read16 (s : State) (addr : Word) : Word := joinBytes (s.read8 (addr + 1)) (s.read8 addr)

/-- `MemWrite(addr, 2, w)` (R54): low byte at `addr` first, then the high byte at `addr + 1`. -/
def State.write16 (s : State) (addr : Word) (w : Word) : State :=
  (s.write8 addr (low8 w)).write8 (addr + 1) (high8 w)

/-! ## Registers (10_state.md R21 to R27) -/

/-- Read an 8-bit register (R21). -/
def State.reg8 (s : State) : Reg8 → Byte
  | .a => s.main.a
  | .b => s.main.b
  | .c => s.main.c
  | .d => s.main.d
  | .e => s.main.e
  | .h => s.main.h
  | .l => s.main.l

/-- Write an 8-bit register (R21). -/
def State.setReg8 (s : State) (r : Reg8) (v : Byte) : State :=
  match r with
  | .a => { s with main.a := v }
  | .b => { s with main.b := v }
  | .c => { s with main.c := v }
  | .d => { s with main.d := v }
  | .e => { s with main.e := v }
  | .h => { s with main.h := v }
  | .l => { s with main.l := v }

/-- `BC = B : C` (R22). -/
def State.bc (s : State) : Word := joinBytes s.main.b s.main.c

/-- `DE = D : E` (R22). -/
def State.de (s : State) : Word := joinBytes s.main.d s.main.e

/-- `HL = H : L` (R22). -/
def State.hl (s : State) : Word := joinBytes s.main.h s.main.l

/-- `AF = A : F`, for the stack only (R22, D20). -/
def State.af (s : State) : Word := joinBytes s.main.a s.main.f

/-- Write BC: `B <- w[15:8]`, `C <- w[7:0]` (R22). -/
def State.setBC (s : State) (w : Word) : State :=
  { s with main.b := high8 w, main.c := low8 w }

/-- Write DE (R22). -/
def State.setDE (s : State) (w : Word) : State :=
  { s with main.d := high8 w, main.e := low8 w }

/-- Write HL (R22). -/
def State.setHL (s : State) (w : Word) : State :=
  { s with main.h := high8 w, main.l := low8 w }

/-- Write AF: `A <- w[15:8]`, all eight bits of `F <- w[7:0]` (R22, R265). -/
def State.setAF (s : State) (w : Word) : State :=
  { s with main.a := high8 w, main.f := low8 w }

/-- Read a 16-bit register operand `rp[p]` (30_encoding.md R74). -/
def State.pair (s : State) : Pair → Word
  | .bc => s.bc
  | .de => s.de
  | .hl => s.hl
  | .sp => s.sp

/-- Write a 16-bit register operand `rp[p]` (R74). -/
def State.setPair (s : State) (p : Pair) (w : Word) : State :=
  match p with
  | .bc => s.setBC w
  | .de => s.setDE w
  | .hl => s.setHL w
  | .sp => { s with sp := w }

/-- Read a stack pair `rp2[q]`, q other than 3 (R75). -/
def State.stackPair (s : State) : StackPair → Word
  | .bc => s.bc
  | .de => s.de
  | .hl => s.hl

/-- Write a stack pair `rp2[q]`, q other than 3 (R75). -/
def State.setStackPair (s : State) (q : StackPair) (w : Word) : State :=
  match q with
  | .bc => s.setBC w
  | .de => s.setDE w
  | .hl => s.setHL w

/-- Read XY: IX or IY (R26, R77). -/
def State.index (s : State) : IndexReg → Word
  | .ix => s.ix
  | .iy => s.iy

/-- Write XY (R26, R77). -/
def State.setIndex (s : State) (x : IndexReg) (w : Word) : State :=
  match x with
  | .ix => { s with ix := w }
  | .iy => { s with iy := w }

/-- The second operand of ADD IX,pp and ADD IY,pp: BC, DE, XY itself or SP, never HL (R74, R161). -/
def State.indexPair (s : State) (x : IndexReg) : IndexPair → Word
  | .bc => s.bc
  | .de => s.de
  | .xy => s.index x
  | .sp => s.sp

/-- `exchange_shadow()` (42_moves_addressing.md R205): the two banks swap, all sixteen cells at
once. -/
def State.exchangeShadow (s : State) : State := { s with main := s.shadow, shadow := s.main }

/-! ## Program counter (43_dispatch_control.md R222, R223) -/

/-- `next = (PC + length) mod 65536` (R222). -/
def State.next (s : State) (length : Nat) : Word := s.pc + BitVec.ofNat 16 length

/-- `pc <- target` (R223). -/
def State.jump (s : State) (target : Word) : State := { s with pc := target }

/-- `pc <- next`, for an instruction of the given length (R223). -/
def State.advance (s : State) (length : Nat) : State := s.jump (s.next length)

/-! ## The stack engine (45_stack.md R260 to R262, R269) -/

/-- `Push16(w)` (R261): decrement SP, write the high byte; decrement SP again, write the low. -/
def State.push16 (s : State) (w : Word) : State :=
  let s1 : State := { s with sp := s.sp - 1 }
  let s2 := s1.write8 s1.sp (high8 w)
  let s3 : State := { s2 with sp := s2.sp - 1 }
  s3.write8 s3.sp (low8 w)

/-- `Pop16()` (R262): read the low byte, increment SP; read the high byte, increment SP. -/
def State.pop16 (s : State) : Word × State :=
  let lo := s.read8 s.sp
  let s1 : State := { s with sp := s.sp + 1 }
  let hi := s1.read8 s1.sp
  (joinBytes hi lo, { s1 with sp := s1.sp + 1 })

/-! ## Block transfer (44_block_transfer.md R250, R253, R254) -/

/-- The `delta` of BlockStep: +1 in the increment forms, -1 in the decrement forms (R250). -/
inductive Direction where
  | up
  | down
deriving DecidableEq, Repr

/-- `(w + delta) mod 65536` (R250). -/
def Direction.move (dir : Direction) (w : Word) : Word :=
  match dir with
  | .up => w + 1
  | .down => w - 1

/-- `BlockStep(delta)` (R250): copy one byte from the address in HL to the one in DE, move HL and
DE by delta, count BC down. -/
def State.blockStep (s : State) (dir : Direction) : State :=
  let s1 := s.write8 s.de (s.read8 s.hl)
  let s2 := s1.setHL (dir.move s1.hl)
  let s3 := s2.setDE (dir.move s2.de)
  s3.setBC (s3.bc - 1)

/-- `while BC ≠ 0: BlockStep(delta)` (R253, R254), for at most `fuel` rounds. -/
def State.blockLoop (dir : Direction) : Nat → State → State
  | 0, s => s
  | fuel + 1, s => if s.bc = 0 then s else blockLoop dir fuel (s.blockStep dir)

/-- The whole loop of a repeat form: it runs exactly BC times (R253), so BC is fuel enough. -/
def State.blockRepeat (s : State) (dir : Direction) : State := State.blockLoop dir s.bc.toNat s

/-! ## The port interface (20_memory.md R60, R61; 46_io.md) -/

/-- The device model's answer to the next port call: the first listed one; where none is listed
the call succeeds, a read with a free value (U3, log 4). -/
def State.portReply (s : State) (port : Byte) : PortReply :=
  match s.portReplies with
  | r :: _ => r
  | [] => .ok (Config.freePortByte s.portCalls port)

/-- The port side of the state once the device model has answered one call. -/
def State.portAnswered (s : State) : State :=
  { s with portReplies := s.portReplies.tail, portCalls := s.portCalls + 1 }

/-- A port call that completed: answered, and recorded in the trace. -/
def State.portCompleted (s : State) (e : PortEvent) : State :=
  { s.portAnswered with portTrace := e :: s.portTrace }

/-! ## Errors (60_exceptions.md R280, R283, R285, R288) -/

/-- Raising an error, the one exceptional event of CORE. "On an error CORE saves nothing, pushes
nothing, changes no mode and no mask, and transfers control nowhere" (R288): the step ends with
the error and no new state, so the state stays the one before the step (R283, R285). There is no
return from it (R289). -/
def raiseError (f : Fault) : StepResult := .fault f

end Sys2Proof.Machine
end

