-- ==== Sys2Proof/Machine/Operands.lean ====
section
/-! DEFINITION. The Addressing Resolver (42_moves_addressing.md R180 to R186): every operand form
that computes an address. Register and immediate operands are read by `State.reg8`,
`State.pair` and the instruction's own fields (R181, R182). -/

namespace Sys2Proof.Machine

/-- `sext_16(d)`: the displacement as a signed 8-bit number, modulo 65,536 (00_scope.md R11,
30_encoding.md R80). -/
def displacement (d : Byte) : Word := d.signExtend 16

/-- The indexed address `(XY + signed8(d)) mod 65536` (R184). -/
def State.indexedAddr (s : State) (x : IndexReg) (d : Byte) : Word := s.index x + displacement d

/-- The register-indirect operand `Mem[HL]` (R183). -/
def State.atHL (s : State) : Byte := s.read8 s.hl

/-- The register-indirect operand `Mem[BC]`, VZ80 only (R183). -/
def State.atBC (s : State) : Byte := s.read8 s.bc

/-- The register-indirect operand `Mem[DE]`, VZ80 only (R183). -/
def State.atDE (s : State) : Byte := s.read8 s.de

/-- The indexed operand `Mem[(XY + signed8(d)) mod 65536]`, VZ80 only (R184). -/
def State.atIndexed (s : State) (x : IndexReg) (d : Byte) : Byte := s.read8 (s.indexedAddr x d)

end Sys2Proof.Machine
end

