-- ==== Sys2Proof/Machine/Flags.lean ====
section
/-! DEFINITION. The flags register (10_state.md R28 to R33), the Flag/ALU unit
(40_alu_primitives.md R100 to R114) and the conditions (43_dispatch_control.md R224). -/

namespace Sys2Proof.Machine

/-! ## Flags as bits of F -/

/-- The five flags of F (R29). -/
inductive Flag where
  | s | z | h | p | c
deriving DecidableEq, Repr

/-- FLAGPOS(VARIANT) (R30, D4): the bit of F that holds a flag; the two layouts coincide. -/
def flagPos : Variant → Flag → Nat
  | .v85, .s => 7
  | .v85, .z => 6
  | .v85, .h => 4
  | .v85, .p => 2
  | .v85, .c => 0
  | .vz80, .s => 7
  | .vz80, .z => 6
  | .vz80, .h => 4
  | .vz80, .p => 2
  | .vz80, .c => 0

/-- Read a flag from a value of F. -/
def getFlag (v : Variant) (f : Byte) (fl : Flag) : Bool := f.getLsbD (flagPos v fl)

/-- A byte with one bit replaced. -/
def setBit (f : Byte) (i : Nat) (b : Bool) : Byte :=
  if b then f ||| (1#8 <<< i) else f &&& ~~~(1#8 <<< i)

/-- The new flags an ALU function returns: a flag that is `none` is not written (00_scope.md R15). -/
structure FlagSet where
  s : Option Bool := none
  z : Option Bool := none
  h : Option Bool := none
  p : Option Bool := none
  c : Option Bool := none
deriving DecidableEq, Repr

/-- The entry of a flag in a flag set. -/
def FlagSet.get (fs : FlagSet) : Flag → Option Bool
  | .s => fs.s
  | .z => fs.z
  | .h => fs.h
  | .p => fs.p
  | .c => fs.c

/-- Write one flag if it is given; every other bit stays (R114). -/
def writeFlag (v : Variant) (fl : Flag) (o : Option Bool) (f : Byte) : Byte :=
  match o with
  | none => f
  | some b => setBit f (flagPos v fl) b

/-- `F with f written` (R114): each returned flag goes to its bit, every other bit stays. -/
def writeFlags (v : Variant) (fs : FlagSet) (f : Byte) : Byte :=
  writeFlag v .c fs.c (writeFlag v .p fs.p (writeFlag v .h fs.h (writeFlag v .z fs.z
    (writeFlag v .s fs.s f))))

/-! ## 8-bit arithmetic -/

/-- How many bits of a byte are 1. -/
def setBitCount (v : Byte) : Nat := ((List.range 8).map fun i => (v.getLsbD i).toNat).sum

/-- `parity8(v)`: 1 iff the number of set bits is even (R101). -/
def parity8 (v : Byte) : Bool := setBitCount v % 2 == 0

/-- Signed overflow of an addition with result `res` (R102). -/
def overflowAdd (a b res : Byte) : Bool :=
  a.getLsbD 7 == b.getLsbD 7 && res.getLsbD 7 != a.getLsbD 7

/-- Signed overflow of a subtraction with result `res` (R102). -/
def overflowSub (a b res : Byte) : Bool :=
  a.getLsbD 7 != b.getLsbD 7 && res.getLsbD 7 != a.getLsbD 7

/-- `PV(ovf, res)`: parity in V85, signed overflow in VZ80 (R103). -/
def parityOverflow (v : Variant) (ovf : Bool) (res : Byte) : Bool :=
  match v with
  | .v85 => parity8 res
  | .vz80 => ovf

/-- `ADD8(a, b, cin)` (R104). -/
def add8 (v : Variant) (a b : Byte) (cin : Bool) : Byte × FlagSet :=
  let t := a.toNat + b.toNat + cin.toNat
  let res := BitVec.ofNat 8 t
  (res,
    { c := some (decide (256 ≤ t))
      h := some (decide (16 ≤ a.toNat % 16 + b.toNat % 16 + cin.toNat))
      z := some (res == 0)
      s := some (res.getLsbD 7)
      p := some (parityOverflow v (overflowAdd a b res) res) })

/-- `SUB8(a, b, bin)` (R105): the addition of the negated operand and negated borrow; C is the
complement of the adder's carry, H is the adder's carry out of bit 3 as it is (D6). -/
def sub8 (v : Variant) (a b : Byte) (bin : Bool) : Byte × FlagSet :=
  let nb := ~~~b
  let nc := !bin
  let t := a.toNat + nb.toNat + nc.toNat
  let res := BitVec.ofNat 8 t
  (res,
    { c := some (!decide (256 ≤ t))
      h := some (decide (16 ≤ a.toNat % 16 + nb.toNat % 16 + nc.toNat))
      z := some (res == 0)
      s := some (res.getLsbD 7)
      p := some (parityOverflow v (overflowSub a b res) res) })

/-- `CP8(a, b)` (R106): the flags of a subtraction without borrow. -/
def cp8 (v : Variant) (a b : Byte) : FlagSet := (sub8 v a b false).2

/-- `LOGIC(res)` (R107): C and H are 0, P is parity in both variants. -/
def logic8 (res : Byte) : Byte × FlagSet :=
  (res,
    { c := some false
      h := some false
      z := some (res == 0)
      s := some (res.getLsbD 7)
      p := some (parity8 res) })

/-- `INC8(x)` (R108): `ADD8(x, 1, 0)` without its C. -/
def inc8 (v : Variant) (x : Byte) : Byte × FlagSet :=
  let (res, fs) := add8 v x 1 false
  (res, { fs with c := none })

/-- `DEC8(x)` (R109): `SUB8(x, 1, 0)` without its C. -/
def dec8 (v : Variant) (x : Byte) : Byte × FlagSet :=
  let (res, fs) := sub8 v x 1 false
  (res, { fs with c := none })

/-! ## 16-bit addition, complement, decimal adjust -/

/-- `ADD16(a, b)` (R110): VZ80 writes C (carry out of bit 15) and H (out of bit 11), V85 C only. -/
def add16 (v : Variant) (a b : Word) : Word × FlagSet :=
  let t := a.toNat + b.toNat
  let carry := decide (65536 ≤ t)
  let half := decide (4096 ≤ a.toNat % 4096 + b.toNat % 4096)
  (BitVec.ofNat 16 t,
    match v with
    | .vz80 => { c := some carry, h := some half }
    | .v85 => { c := some carry })

/-- `CPL8(a) = (~a) mod 256`, no flags (R111). -/
def cpl8 (a : Byte) : Byte := ~~~a

/-- `DAA8(a, h, c)` (R112): the correction after an addition, mechanically for every input; H is
not written. -/
def daa8 (a : Byte) (h c : Bool) : Byte × FlagSet :=
  let t1 := a.toNat + (if 9 < a.toNat % 16 ∨ h = true then 6 else 0)
  let c1 := decide (256 ≤ t1)
  let u := t1 % 256
  let t2 := u + (if 9 < u / 16 ∨ c = true ∨ c1 = true then 0x60 else 0)
  let c2 := decide (256 ≤ t2)
  let res := BitVec.ofNat 8 t2
  (res,
    { c := some (c || c1 || c2)
      z := some (res == 0)
      s := some (res.getLsbD 7)
      p := some (parity8 res) })

/-! ## Flags of the machine -/

/-- A flag of F in its variant's layout (R28, R30). -/
def State.flag (s : State) (fl : Flag) : Bool := getFlag s.variant s.main.f fl

/-- Write the flags an ALU function returned into F (R114). -/
def State.setFlags (s : State) (fs : FlagSet) : State :=
  { s with main.f := writeFlags s.variant fs s.main.f }

/-- `A <- res; F <- F with f written`, the last lines of the accumulator template (41_alu_instructions.md
R116). -/
def State.accumulate (s : State) (r : Byte × FlagSet) : State := (s.setReg8 .a r.1).setFlags r.2

/-- `cond(cc)` (R224). -/
def State.cond (s : State) : Cond → Bool
  | .nz => !s.flag .z
  | .z => s.flag .z
  | .nc => !s.flag .c
  | .c => s.flag .c
  | .po => !s.flag .p
  | .pe => s.flag .p
  | .p => !s.flag .s
  | .m => s.flag .s

end Sys2Proof.Machine
end

