-- ==== Sys2Proof/Machine/Accumulator.lean ====
section
/-! DEFINITION. The eight accumulator operations in their four operand forms (41_alu_instructions.md R116
to R151): A is the first operand and, but for CP, the destination; the second operand is read
before A and F are written (R116). -/

namespace Sys2Proof.Machine

/-- `ADD A,r` / `ADD r` (R120): the sum of A and the operand. -/
def execAddR (r : Reg8) (s : State) : StepResult :=
  .next ((s.accumulate (add8 s.variant s.main.a (s.reg8 r) false)).advance 1)

/-- `ADD A,(HL)` / `ADD M` (R121): the sum of A and the operand. -/
def execAddAtHL (s : State) : StepResult :=
  .next ((s.accumulate (add8 s.variant s.main.a s.atHL false)).advance 1)

/-- `ADD A,n` / `ADI n` (R122): the sum of A and the operand. -/
def execAddN (n : Byte) (s : State) : StepResult :=
  .next ((s.accumulate (add8 s.variant s.main.a n false)).advance 2)

/-- `ADD A,(XY+d)` (R123, VZ80 only): the sum of A and the operand. -/
def execAddAtXYd (x : IndexReg) (d : Byte) (s : State) : StepResult :=
  .next ((s.accumulate (add8 s.variant s.main.a (s.atIndexed x d) false)).advance 3)

/-- `ADC A,r` / `ADC r` (R124): the sum of A, the operand and the old C. -/
def execAdcR (r : Reg8) (s : State) : StepResult :=
  .next ((s.accumulate (add8 s.variant s.main.a (s.reg8 r) (s.flag .c))).advance 1)

/-- `ADC A,(HL)` / `ADC M` (R125): the sum of A, the operand and the old C. -/
def execAdcAtHL (s : State) : StepResult :=
  .next ((s.accumulate (add8 s.variant s.main.a s.atHL (s.flag .c))).advance 1)

/-- `ADC A,n` / `ACI n` (R126): the sum of A, the operand and the old C. -/
def execAdcN (n : Byte) (s : State) : StepResult :=
  .next ((s.accumulate (add8 s.variant s.main.a n (s.flag .c))).advance 2)

/-- `ADC A,(XY+d)` (R127, VZ80 only): the sum of A, the operand and the old C. -/
def execAdcAtXYd (x : IndexReg) (d : Byte) (s : State) : StepResult :=
  .next ((s.accumulate (add8 s.variant s.main.a (s.atIndexed x d) (s.flag .c))).advance 3)

/-- `SUB r` (R128): A minus the operand. -/
def execSubR (r : Reg8) (s : State) : StepResult :=
  .next ((s.accumulate (sub8 s.variant s.main.a (s.reg8 r) false)).advance 1)

/-- `SUB (HL)` / `SUB M` (R129): A minus the operand. -/
def execSubAtHL (s : State) : StepResult :=
  .next ((s.accumulate (sub8 s.variant s.main.a s.atHL false)).advance 1)

/-- `SUB n` / `SUI n` (R130): A minus the operand. -/
def execSubN (n : Byte) (s : State) : StepResult :=
  .next ((s.accumulate (sub8 s.variant s.main.a n false)).advance 2)

/-- `SUB (XY+d)` (R131, VZ80 only): A minus the operand. -/
def execSubAtXYd (x : IndexReg) (d : Byte) (s : State) : StepResult :=
  .next ((s.accumulate (sub8 s.variant s.main.a (s.atIndexed x d) false)).advance 3)

/-- `SBC A,r` / `SBB r` (R132): A minus the operand minus the old C. -/
def execSbcR (r : Reg8) (s : State) : StepResult :=
  .next ((s.accumulate (sub8 s.variant s.main.a (s.reg8 r) (s.flag .c))).advance 1)

/-- `SBC A,(HL)` / `SBB M` (R133): A minus the operand minus the old C. -/
def execSbcAtHL (s : State) : StepResult :=
  .next ((s.accumulate (sub8 s.variant s.main.a s.atHL (s.flag .c))).advance 1)

/-- `SBC A,n` / `SBI n` (R134): A minus the operand minus the old C. -/
def execSbcN (n : Byte) (s : State) : StepResult :=
  .next ((s.accumulate (sub8 s.variant s.main.a n (s.flag .c))).advance 2)

/-- `SBC A,(XY+d)` (R135, VZ80 only): A minus the operand minus the old C. -/
def execSbcAtXYd (x : IndexReg) (d : Byte) (s : State) : StepResult :=
  .next ((s.accumulate (sub8 s.variant s.main.a (s.atIndexed x d) (s.flag .c))).advance 3)

/-- `AND r` / `ANA r` (R136): bitwise AND. -/
def execAndR (r : Reg8) (s : State) : StepResult :=
  .next ((s.accumulate (logic8 (s.main.a &&& (s.reg8 r)))).advance 1)

/-- `AND (HL)` / `ANA M` (R137): bitwise AND. -/
def execAndAtHL (s : State) : StepResult :=
  .next ((s.accumulate (logic8 (s.main.a &&& s.atHL))).advance 1)

/-- `AND n` / `ANI n` (R138): bitwise AND. -/
def execAndN (n : Byte) (s : State) : StepResult :=
  .next ((s.accumulate (logic8 (s.main.a &&& n))).advance 2)

/-- `AND (XY+d)` (R139, VZ80 only): bitwise AND. -/
def execAndAtXYd (x : IndexReg) (d : Byte) (s : State) : StepResult :=
  .next ((s.accumulate (logic8 (s.main.a &&& (s.atIndexed x d)))).advance 3)

/-- `XOR r` / `XRA r` (R140): bitwise exclusive OR. -/
def execXorR (r : Reg8) (s : State) : StepResult :=
  .next ((s.accumulate (logic8 (s.main.a ^^^ (s.reg8 r)))).advance 1)

/-- `XOR (HL)` / `XRA M` (R141): bitwise exclusive OR. -/
def execXorAtHL (s : State) : StepResult :=
  .next ((s.accumulate (logic8 (s.main.a ^^^ s.atHL))).advance 1)

/-- `XOR n` / `XRI n` (R142): bitwise exclusive OR. -/
def execXorN (n : Byte) (s : State) : StepResult :=
  .next ((s.accumulate (logic8 (s.main.a ^^^ n))).advance 2)

/-- `XOR (XY+d)` (R143, VZ80 only): bitwise exclusive OR. -/
def execXorAtXYd (x : IndexReg) (d : Byte) (s : State) : StepResult :=
  .next ((s.accumulate (logic8 (s.main.a ^^^ (s.atIndexed x d)))).advance 3)

/-- `OR r` / `ORA r` (R144): bitwise OR. -/
def execOrR (r : Reg8) (s : State) : StepResult :=
  .next ((s.accumulate (logic8 (s.main.a ||| (s.reg8 r)))).advance 1)

/-- `OR (HL)` / `ORA M` (R145): bitwise OR. -/
def execOrAtHL (s : State) : StepResult :=
  .next ((s.accumulate (logic8 (s.main.a ||| s.atHL))).advance 1)

/-- `OR n` / `ORI n` (R146): bitwise OR. -/
def execOrN (n : Byte) (s : State) : StepResult :=
  .next ((s.accumulate (logic8 (s.main.a ||| n))).advance 2)

/-- `OR (XY+d)` (R147, VZ80 only): bitwise OR. -/
def execOrAtXYd (x : IndexReg) (d : Byte) (s : State) : StepResult :=
  .next ((s.accumulate (logic8 (s.main.a ||| (s.atIndexed x d)))).advance 3)

/-- `CP r` / `CMP r` (R148): the flags of A minus the operand; A is not written. -/
def execCpR (r : Reg8) (s : State) : StepResult :=
  .next ((s.setFlags (cp8 s.variant s.main.a (s.reg8 r))).advance 1)

/-- `CP (HL)` / `CMP M` (R149): the flags of A minus the operand; A is not written. -/
def execCpAtHL (s : State) : StepResult :=
  .next ((s.setFlags (cp8 s.variant s.main.a s.atHL)).advance 1)

/-- `CP n` / `CPI n` (R150): the flags of A minus the operand; A is not written. -/
def execCpN (n : Byte) (s : State) : StepResult :=
  .next ((s.setFlags (cp8 s.variant s.main.a n)).advance 2)

/-- `CP (XY+d)` (R151, VZ80 only): the flags of A minus the operand; A is not written. -/
def execCpAtXYd (x : IndexReg) (d : Byte) (s : State) : StepResult :=
  .next ((s.setFlags (cp8 s.variant s.main.a (s.atIndexed x d))).advance 3)

end Sys2Proof.Machine
end

