-- ==== Sys2Proof/Machine/Arithmetic.lean ====
section
/-! DEFINITION. 8-bit increment and decrement (41_alu_instructions.md R152 to R157), 16-bit arithmetic
(R160 to R165), complement (R170) and decimal adjust (R171). -/

namespace Sys2Proof.Machine

/-- Read-modify-write of the memory cell at `addr` (R118): the read comes first, then the write of
the same cell, then the flags. -/
def State.modify8 (s : State) (addr : Word) (f : Byte → Byte × FlagSet) : State :=
  let r := f (s.read8 addr)
  (s.write8 addr r.1).setFlags r.2

/-- Read-modify-write of an 8-bit register (R152, R155). -/
def State.modifyReg8 (s : State) (r : Reg8) (f : Byte → Byte × FlagSet) : State :=
  let q := f (s.reg8 r)
  (s.setReg8 r q.1).setFlags q.2

/-- `INC r` / `INR r` (R152): the register plus 1; C is not written. -/
def execIncR (r : Reg8) (s : State) : StepResult :=
  .next ((s.modifyReg8 r (inc8 s.variant)).advance 1)

/-- `INC (HL)` / `INR M` (R153): the cell at HL plus 1; C is not written. -/
def execIncAtHL (s : State) : StepResult := .next ((s.modify8 s.hl (inc8 s.variant)).advance 1)

/-- `INC (XY+d)` (R154, VZ80 only): the indexed cell plus 1; C is not written. -/
def execIncAtXYd (x : IndexReg) (d : Byte) (s : State) : StepResult :=
  .next ((s.modify8 (s.indexedAddr x d) (inc8 s.variant)).advance 3)

/-- `DEC r` / `DCR r` (R155): the register minus 1; C is not written. -/
def execDecR (r : Reg8) (s : State) : StepResult :=
  .next ((s.modifyReg8 r (dec8 s.variant)).advance 1)

/-- `DEC (HL)` / `DCR M` (R156): the cell at HL minus 1; C is not written. -/
def execDecAtHL (s : State) : StepResult := .next ((s.modify8 s.hl (dec8 s.variant)).advance 1)

/-- `DEC (XY+d)` (R157, VZ80 only): the indexed cell minus 1; C is not written. -/
def execDecAtXYd (x : IndexReg) (d : Byte) (s : State) : StepResult :=
  .next ((s.modify8 (s.indexedAddr x d) (dec8 s.variant)).advance 3)

/-- `ADD HL,ss` / `DAD rp` (R160): HL plus a 16-bit register. -/
def execAddHLSS (p : Pair) (s : State) : StepResult :=
  let r := add16 s.variant s.hl (s.pair p)
  .next (((s.setHL r.1).setFlags r.2).advance 1)

/-- `ADD XY,pp` (R161, VZ80 only): an index register plus a 16-bit register. -/
def execAddXYPP (x : IndexReg) (p : IndexPair) (s : State) : StepResult :=
  let r := add16 s.variant (s.index x) (s.indexPair x p)
  .next (((s.setIndex x r.1).setFlags r.2).advance 2)

/-- `INC ss` / `INX rp` (R162): plus 1 modulo 65,536, no flag (R23). -/
def execIncSS (p : Pair) (s : State) : StepResult := .next ((s.setPair p (s.pair p + 1)).advance 1)

/-- `INC XY` (R163, VZ80 only): plus 1 modulo 65,536, no flag (R23). -/
def execIncXY (x : IndexReg) (s : State) : StepResult :=
  .next ((s.setIndex x (s.index x + 1)).advance 2)

/-- `DEC ss` / `DCX rp` (R164): minus 1 modulo 65,536, no flag (R23). -/
def execDecSS (p : Pair) (s : State) : StepResult := .next ((s.setPair p (s.pair p - 1)).advance 1)

/-- `DEC XY` (R165, VZ80 only): minus 1 modulo 65,536, no flag (R23). -/
def execDecXY (x : IndexReg) (s : State) : StepResult :=
  .next ((s.setIndex x (s.index x - 1)).advance 2)

/-- `CPL` / `CMA` (R170): the complement of A, no flag (R111). -/
def execCpl (s : State) : StepResult := .next ((s.setReg8 .a (cpl8 s.main.a)).advance 1)

/-- `DAA` (R171): decimal adjust of A after an addition (R112). -/
def execDaa (s : State) : StepResult :=
  .next ((s.accumulate (daa8 s.main.a (s.flag .h) (s.flag .c))).advance 1)

end Sys2Proof.Machine
end

