-- ==== Sys2Proof/Machine/Block.lean ====
section
/-! DEFINITION. The block transfers (44_block_transfer.md R250 to R257), VZ80 only. None writes a flag
(R255). A repeat form does its whole loop in one step (R253). -/

namespace Sys2Proof.Machine

/-- `LDI` (R251, VZ80 only): one step upward; the counter is not tested. -/
def execLdi (s : State) : StepResult := .next ((s.blockStep .up).advance 2)

/-- `LDD` (R252, VZ80 only): one step downward; the counter is not tested. -/
def execLdd (s : State) : StepResult := .next ((s.blockStep .down).advance 2)

/-- `LDIR` (R253, VZ80 only): steps upward while BC is not 0. -/
def execLdir (s : State) : StepResult := .next ((s.blockRepeat .up).advance 2)

/-- `LDDR` (R254, VZ80 only): steps downward while BC is not 0. -/
def execLddr (s : State) : StepResult := .next ((s.blockRepeat .down).advance 2)

end Sys2Proof.Machine
end

