-- ==== Sys2Proof/Machine/Control.lean ====
section
/-! DEFINITION. Jumps, calls, returns and HALT (43_dispatch_control.md R226 to R235). A target is a full
16-bit address, taken as it is (R235). -/

namespace Sys2Proof.Machine

/-- Push the address of the following instruction and go to `target` (R228). -/
def State.callTo (s : State) (target : Word) : State := (s.push16 (s.next 3)).jump target

/-- Pop an address and go there (R230). -/
def State.returnToCaller (s : State) : State :=
  let r := s.pop16
  r.2.jump r.1

/-- `JP nn` / `JMP nn` (R226). -/
def execJpNN (nn : Word) (s : State) : StepResult := .next (s.jump nn)

/-- `JP cc,nn` / `Jcc nn` (R227). -/
def execJpCCNN (cc : Cond) (nn : Word) (s : State) : StepResult :=
  .next (if s.cond cc then s.jump nn else s.advance 3)

/-- `CALL nn` (R228). -/
def execCallNN (nn : Word) (s : State) : StepResult := .next (s.callTo nn)

/-- `CALL cc,nn` / `Ccc nn` (R229). -/
def execCallCCNN (cc : Cond) (nn : Word) (s : State) : StepResult :=
  .next (if s.cond cc then s.callTo nn else s.advance 3)

/-- `RET` (R230). -/
def execRet (s : State) : StepResult := .next s.returnToCaller

/-- `RET cc` / `Rcc` (R231). -/
def execRetCC (cc : Cond) (s : State) : StepResult :=
  .next (if s.cond cc then s.returnToCaller else s.advance 1)

/-- `HALT` / `HLT` (R232): RUN becomes HALTED; PC is the address after HALT (D29). -/
def execHalt (s : State) : StepResult := .next (State.advance { s with run := .halted } 1)

end Sys2Proof.Machine
end

