-- ==== Sys2Proof/Machine/Moves.lean ====
section
/-! DEFINITION. Moves, loads and stores (42_moves_addressing.md R187 to R202) and the shadow exchange
(R205). None writes a flag, but for the exchange, which swaps F with the shadow F whole. -/

namespace Sys2Proof.Machine

/-- `LD r,r'` / `MOV r1,r2` (R187). -/
def execLdRR (rd : Reg8) (rs : Reg8) (s : State) : StepResult :=
  .next ((s.setReg8 rd (s.reg8 rs)).advance 1)

/-- `LD r,(HL)` / `MOV r,M` (R188): the address is the old HL, also when r is H or L. -/
def execLdRAtHL (r : Reg8) (s : State) : StepResult := .next ((s.setReg8 r s.atHL).advance 1)

/-- `LD (HL),r` / `MOV M,r` (R189). -/
def execLdAtHLR (r : Reg8) (s : State) : StepResult := .next ((s.write8 s.hl (s.reg8 r)).advance 1)

/-- `LD r,n` / `MVI r,n` (R190). -/
def execLdRN (r : Reg8) (n : Byte) (s : State) : StepResult := .next ((s.setReg8 r n).advance 2)

/-- `LD (HL),n` / `MVI M,n` (R191). -/
def execLdAtHLN (n : Byte) (s : State) : StepResult := .next ((s.write8 s.hl n).advance 2)

/-- `LD A,(BC)` (R192, VZ80 only). -/
def execLdAAtBC (s : State) : StepResult := .next ((s.setReg8 .a s.atBC).advance 1)

/-- `LD A,(DE)` (R193, VZ80 only). -/
def execLdAAtDE (s : State) : StepResult := .next ((s.setReg8 .a s.atDE).advance 1)

/-- `LD (BC),A` (R194, VZ80 only). -/
def execLdAtBCA (s : State) : StepResult := .next ((s.write8 s.bc s.main.a).advance 1)

/-- `LD (DE),A` (R195, VZ80 only). -/
def execLdAtDEA (s : State) : StepResult := .next ((s.write8 s.de s.main.a).advance 1)

/-- `LD dd,nn` / `LXI rp,nn` (R196). -/
def execLdDDNN (p : Pair) (nn : Word) (s : State) : StepResult := .next ((s.setPair p nn).advance 3)

/-- `LD A,(nn)` / `LDA nn` (R197). -/
def execLdAAtNN (nn : Word) (s : State) : StepResult :=
  .next ((s.setReg8 .a (s.read8 nn)).advance 3)

/-- `LD (nn),A` / `STA nn` (R198). -/
def execLdAtNNA (nn : Word) (s : State) : StepResult := .next ((s.write8 nn s.main.a).advance 3)

/-- `LD HL,(nn)` / `LHLD nn` (R199). -/
def execLdHLAtNN (nn : Word) (s : State) : StepResult := .next ((s.setHL (s.read16 nn)).advance 3)

/-- `LD (nn),HL` / `SHLD nn` (R200). -/
def execLdAtNNHL (nn : Word) (s : State) : StepResult := .next ((s.write16 nn s.hl).advance 3)

/-- `LD r,(XY+d)` (R201, VZ80 only): H and L are the plain registers. -/
def execLdRAtXYd (r : Reg8) (x : IndexReg) (d : Byte) (s : State) : StepResult :=
  .next ((s.setReg8 r (s.atIndexed x d)).advance 3)

/-- `LD (XY+d),r` (R202, VZ80 only). -/
def execLdAtXYdR (x : IndexReg) (d : Byte) (r : Reg8) (s : State) : StepResult :=
  .next ((s.write8 (s.indexedAddr x d) (s.reg8 r)).advance 3)

/-- `EXSH` (R205, VZ80 only): all eight cells of the two banks swap at once. -/
def execExsh (s : State) : StepResult := .next (s.exchangeShadow.advance 1)

end Sys2Proof.Machine
end

