-- ==== Sys2Proof/Machine/Ports.lean ====
section
/-! DEFINITION. Port input and output (46_io.md R270 to R272). The device model is called exactly once;
its failure ends the step before anything is written (R285), its blocking leaves the step without
an end (U5). -/

namespace Sys2Proof.Machine

/-- `IN A,(n)` / `IN n` (R270): A receives the device model's byte; no flag. -/
def execInAN (n : Byte) (s : State) : StepResult :=
  match s.portReply n with
  | .ok v => .next (((s.portCompleted (.input n v)).setReg8 .a v).advance 2)
  | .failed e => raiseError (.portFailure e)
  | .blocked => raiseError .portBlocked

/-- `OUT (n),A` / `OUT n` (R271): the device model receives the port and A. -/
def execOutNA (n : Byte) (s : State) : StepResult :=
  match s.portReply n with
  | .ok _ => .next ((s.portCompleted (.output n s.main.a)).advance 2)
  | .failed e => raiseError (.portFailure e)
  | .blocked => raiseError .portBlocked

end Sys2Proof.Machine
end

