-- ==== Sys2Proof/Machine/Stack.lean ====
section
/-! DEFINITION. PUSH and POP (45_stack.md R263 to R268). Neither writes a flag, but POP AF loads all of F. -/

namespace Sys2Proof.Machine

/-- `PUSH qq` / `PUSH rp` (R263). -/
def execPushQQ (q : StackPair) (s : State) : StepResult :=
  .next ((s.push16 (s.stackPair q)).advance 1)

/-- `PUSH AF` / `PUSH PSW` (R264): all eight bits of F are stored. -/
def execPushAF (s : State) : StepResult := .next ((s.push16 s.af).advance 1)

/-- `POP AF` / `POP PSW` (R265): all eight bits of F are loaded. -/
def execPopAF (s : State) : StepResult :=
  let r := s.pop16
  .next ((r.2.setAF r.1).advance 1)

/-- `POP qq` / `POP rp` (R266). -/
def execPopQQ (q : StackPair) (s : State) : StepResult :=
  let r := s.pop16
  .next ((r.2.setStackPair q r.1).advance 1)

/-- `PUSH XY` (R267, VZ80 only). -/
def execPushXY (x : IndexReg) (s : State) : StepResult := .next ((s.push16 (s.index x)).advance 2)

/-- `POP XY` (R268, VZ80 only). -/
def execPopXY (x : IndexReg) (s : State) : StepResult :=
  let r := s.pop16
  .next ((r.2.setIndex x r.1).advance 2)

end Sys2Proof.Machine
end

