-- ==== Sys2Proof/Machine/Dispatch.lean ====
section
/-! DEFINITION. EXECUTE: one arm for each constructor of `Instr`, each one call of its meaning. -/

namespace Sys2Proof.Machine

def exec (i : Instr) (s : State) : Host.Outcome State Fault Refusal :=
  match i with
  -- 8-bit accumulator operations (41_alu_instructions.md section 2)
  | .addR r => Sys2Proof.Machine.execAddR r s
  | .addAtHL => Sys2Proof.Machine.execAddAtHL s
  | .addN n => Sys2Proof.Machine.execAddN n s
  | .addAtXYd x d => Sys2Proof.Machine.execAddAtXYd x d s
  | .adcR r => Sys2Proof.Machine.execAdcR r s
  | .adcAtHL => Sys2Proof.Machine.execAdcAtHL s
  | .adcN n => Sys2Proof.Machine.execAdcN n s
  | .adcAtXYd x d => Sys2Proof.Machine.execAdcAtXYd x d s
  | .subR r => Sys2Proof.Machine.execSubR r s
  | .subAtHL => Sys2Proof.Machine.execSubAtHL s
  | .subN n => Sys2Proof.Machine.execSubN n s
  | .subAtXYd x d => Sys2Proof.Machine.execSubAtXYd x d s
  | .sbcR r => Sys2Proof.Machine.execSbcR r s
  | .sbcAtHL => Sys2Proof.Machine.execSbcAtHL s
  | .sbcN n => Sys2Proof.Machine.execSbcN n s
  | .sbcAtXYd x d => Sys2Proof.Machine.execSbcAtXYd x d s
  | .andR r => Sys2Proof.Machine.execAndR r s
  | .andAtHL => Sys2Proof.Machine.execAndAtHL s
  | .andN n => Sys2Proof.Machine.execAndN n s
  | .andAtXYd x d => Sys2Proof.Machine.execAndAtXYd x d s
  | .xorR r => Sys2Proof.Machine.execXorR r s
  | .xorAtHL => Sys2Proof.Machine.execXorAtHL s
  | .xorN n => Sys2Proof.Machine.execXorN n s
  | .xorAtXYd x d => Sys2Proof.Machine.execXorAtXYd x d s
  | .orR r => Sys2Proof.Machine.execOrR r s
  | .orAtHL => Sys2Proof.Machine.execOrAtHL s
  | .orN n => Sys2Proof.Machine.execOrN n s
  | .orAtXYd x d => Sys2Proof.Machine.execOrAtXYd x d s
  | .cpR r => Sys2Proof.Machine.execCpR r s
  | .cpAtHL => Sys2Proof.Machine.execCpAtHL s
  | .cpN n => Sys2Proof.Machine.execCpN n s
  | .cpAtXYd x d => Sys2Proof.Machine.execCpAtXYd x d s
  -- 8-bit increment and decrement (section 3)
  | .incR r => Sys2Proof.Machine.execIncR r s
  | .incAtHL => Sys2Proof.Machine.execIncAtHL s
  | .incAtXYd x d => Sys2Proof.Machine.execIncAtXYd x d s
  | .decR r => Sys2Proof.Machine.execDecR r s
  | .decAtHL => Sys2Proof.Machine.execDecAtHL s
  | .decAtXYd x d => Sys2Proof.Machine.execDecAtXYd x d s
  -- 16-bit arithmetic (section 4)
  | .addHLSS p => Sys2Proof.Machine.execAddHLSS p s
  | .addXYPP x p => Sys2Proof.Machine.execAddXYPP x p s
  | .incSS p => Sys2Proof.Machine.execIncSS p s
  | .incXY x => Sys2Proof.Machine.execIncXY x s
  | .decSS p => Sys2Proof.Machine.execDecSS p s
  | .decXY x => Sys2Proof.Machine.execDecXY x s
  -- complement and decimal adjust (section 5)
  | .cpl => Sys2Proof.Machine.execCpl s
  | .daa => Sys2Proof.Machine.execDaa s
  -- moves, loads and stores (42_moves_addressing.md)
  | .ldRR rd rs => Sys2Proof.Machine.execLdRR rd rs s
  | .ldRAtHL r => Sys2Proof.Machine.execLdRAtHL r s
  | .ldAtHLR r => Sys2Proof.Machine.execLdAtHLR r s
  | .ldRN r n => Sys2Proof.Machine.execLdRN r n s
  | .ldAtHLN n => Sys2Proof.Machine.execLdAtHLN n s
  | .ldAAtBC => Sys2Proof.Machine.execLdAAtBC s
  | .ldAAtDE => Sys2Proof.Machine.execLdAAtDE s
  | .ldAtBCA => Sys2Proof.Machine.execLdAtBCA s
  | .ldAtDEA => Sys2Proof.Machine.execLdAtDEA s
  | .ldDDNN p nn => Sys2Proof.Machine.execLdDDNN p nn s
  | .ldAAtNN nn => Sys2Proof.Machine.execLdAAtNN nn s
  | .ldAtNNA nn => Sys2Proof.Machine.execLdAtNNA nn s
  | .ldHLAtNN nn => Sys2Proof.Machine.execLdHLAtNN nn s
  | .ldAtNNHL nn => Sys2Proof.Machine.execLdAtNNHL nn s
  | .ldRAtXYd r x d => Sys2Proof.Machine.execLdRAtXYd r x d s
  | .ldAtXYdR x d r => Sys2Proof.Machine.execLdAtXYdR x d r s
  -- shadow exchange (42_moves_addressing.md section 6)
  | .exsh => Sys2Proof.Machine.execExsh s
  -- jumps, calls, returns, HALT (43_dispatch_control.md)
  | .jpNN nn => Sys2Proof.Machine.execJpNN nn s
  | .jpCCNN cc nn => Sys2Proof.Machine.execJpCCNN cc nn s
  | .callNN nn => Sys2Proof.Machine.execCallNN nn s
  | .callCCNN cc nn => Sys2Proof.Machine.execCallCCNN cc nn s
  | .ret => Sys2Proof.Machine.execRet s
  | .retCC cc => Sys2Proof.Machine.execRetCC cc s
  | .halt => Sys2Proof.Machine.execHalt s
  -- block transfer (44_block_transfer.md)
  | .ldi => Sys2Proof.Machine.execLdi s
  | .ldd => Sys2Proof.Machine.execLdd s
  | .ldir => Sys2Proof.Machine.execLdir s
  | .lddr => Sys2Proof.Machine.execLddr s
  -- stack (45_stack.md)
  | .pushQQ q => Sys2Proof.Machine.execPushQQ q s
  | .pushAF => Sys2Proof.Machine.execPushAF s
  | .popAF => Sys2Proof.Machine.execPopAF s
  | .popQQ q => Sys2Proof.Machine.execPopQQ q s
  | .pushXY x => Sys2Proof.Machine.execPushXY x s
  | .popXY x => Sys2Proof.Machine.execPopXY x s
  -- port input and output (46_io.md)
  | .inAN n => Sys2Proof.Machine.execInAN n s
  | .outNA n => Sys2Proof.Machine.execOutNA n s

end Sys2Proof.Machine
end

