-- ==== Sys2Proof/Machine/Fetch.lean ====
section
/-! DEFINITION. FETCH and DECODE (43_dispatch_control.md R221): an instruction's bytes are ordinary
memory reads at PC, PC+1 and PC+2, modulo 65,536. -/

namespace Sys2Proof.Machine

/-- The three bytes at PC. Reading the ones an instruction does not have changes nothing (R221,
log 12). -/
def State.fetch (s : State) : Byte × Byte × Byte :=
  (s.read8 s.pc, s.read8 (s.pc + 1), s.read8 (s.pc + 2))

/-- The instruction at PC, or the reason why there is none (R221, R281, R282). -/
def State.decodeAtPc (s : State) : Except DecodeReason Instr :=
  match s.fetch with
  | (b0, b1, b2) => decode s.variant b0 b1 b2

/-- Three bytes stored at PC, PC+1 and PC+2, where the next fetch reads them. -/
def State.storeAtPc (s : State) (bytes : Byte × Byte × Byte) : State :=
  ((s.write8 s.pc bytes.1).write8 (s.pc + 1) bytes.2.1).write8 (s.pc + 2) bytes.2.2

end Sys2Proof.Machine
end

