-- ==== Sys2Proof/Machine/Step.lean ====
section
/-! DEFINITION. One step of CORE (43_dispatch_control.md R220). -/

namespace Sys2Proof.Machine

/-- `step()` (R220): while HALTED nothing changes (R233); otherwise the instruction at PC is
fetched, decoded and executed, or the DecodeError is raised (R281, R282). -/
def step (s : State) : Host.Outcome State Fault Refusal :=
  match s.run with
  | .halted => .next s
  | .running =>
    match s.decodeAtPc with
    | .error reason => raiseError (.decodeError reason)
    | .ok i => exec i s

/-- The state with a word of the opcode table stored where the next step fetches (log 9, log 10):
its three bytes at PC. The step fetches only while RUNNING, so RUN is RUNNING. -/
def State.withFetchWord (s : State) (nbits w : Nat) : State :=
  { s.storeAtPc (tableBytes nbits w) with run := .running }

end Sys2Proof.Machine
end

