-- ==== Sys2Proof/Machine/Driver.lean ====
section
/-! DEFINITION. What the driver, outside the machine, can do to one CORE: construct it (70 R310),
load the image (20 R67, R313), reset it (70 R311), step it (43 R220), run it (43 R225) and inspect
it (10 R39). It acts only between steps (00 R17). -/

namespace Sys2Proof.Machine.Driver

/-- Program loading (R67): `Mem[addr mod 65536] <- byte` for every pair of the image. -/
def loadImage (image : List (Nat × Byte)) (m : Memory) : Memory :=
  image.foldl (fun m p => m.writeAt (p.1 % 65536) p.2) m

/-- Construction (R310): every register 0, RUNNING, memory 0 with the image written over it. The
device model is given by its coming answers (log 4). -/
def construct (v : Variant) (replies : List PortReply) (image : List (Nat × Byte)) : State :=
  { State.reset with variant := v, portReplies := replies, mem := loadImage image [] }

/-- `reset()` (R311): every register 0 and RUNNING; memory, the variant and the device model stay. -/
def reset (s : State) : State :=
  { s with
    main := Bank.zero
    shadow := Bank.zero
    sp := 0x0000
    pc := 0x0000
    ix := 0x0000
    iy := 0x0000
    run := .running }

/-- What `step()` returns to the driver (R220). -/
inductive StepOutcome where
  | running
  | halted
  | error (e : Fault)
deriving DecidableEq, Repr

/-- `step()` as the driver sees it (R220): the state after the call and its outcome. After an error
the machine's state is the one before the step (R283, R285); a failed port call has used up one
answer of the device model. `none`: the call never returns (R285, U5). -/
def step (s : State) : Option (State × StepOutcome) :=
  match Machine.step s with
  | .next t => some (t, if t.run = .halted then .halted else .running)
  | .fault (.decodeError reason) => some (s, .error (.decodeError reason))
  | .fault (.portFailure e) => some (s.portAnswered, .error (.portFailure e))
  | .fault .portBlocked => none
  | .refused _ => none

/-- What `run(max_steps)` returns to the driver (R225, R286). -/
inductive RunOutcome where
  | halted
  | budgetExhausted
  | error (e : Fault)
deriving DecidableEq, Repr

/-- `run(max_steps)` (R225): step while RUNNING and within the budget; an error ends it. The number
is the count of steps taken. `none`: a step never returns. -/
def run : Nat → State → Option (State × RunOutcome × Nat)
  | 0, s => some (s, if s.run = .halted then .halted else .budgetExhausted, 0)
  | budget + 1, s =>
    if s.run = .halted then some (s, .halted, 0)
    else
      match step s with
      | none => none
      | some (t, .error e) => some (t, .error e, 1)
      | some (t, _) => (run budget t).map fun (u, o, n) => (u, o, n + 1)

/-- The inspection surface for memory ranges (R39): `n` bytes from an address on. Registers, flags,
PC and SP are read by the fields of `State` and by `State.flag`. -/
def memoryRange (s : State) (addr : Word) (n : Nat) : List Byte :=
  (List.range n).map fun i => s.read8 (addr + BitVec.ofNat 16 i)

/-- The optional numbers of the errors (R284, D32); nothing in CORE depends on them. A blocked call
is no error and has none. -/
def errorNumber : Fault → Option Nat
  | .decodeError .illegalOpcode => some 1
  | .decodeError .illegalOperand => some 2
  | .portFailure _ => some 3
  | .portBlocked => none

end Sys2Proof.Machine.Driver
end

