-- ==== Sys2Proof/Safety.lean ====
section
/-! DEFINITION. The words the claims about CORE are made in: the invariant, what each instruction
may change (read from 10_state.md R32 and the instruction rules, not from the meanings), and the
arithmetic a result is compared with. -/

namespace Sys2Proof.Machine

/-! ## The invariant -/

/-- Memory keeps its canonical form, and the registers V85 does not have (R26, R27) hold nothing
in V85. -/
def State.Inv (s : State) : Prop :=
  s.mem.wf = true ∧ (s.variant = .v85 → s.ix = 0 ∧ s.iy = 0 ∧ s.shadow = Bank.zero)

/-- A step result with its next state changed. -/
def mapNext (f : State → State) : StepResult → StepResult
  | .next t => .next (f t)
  | .fault e => .fault e
  | .refused r => .refused r

/-- The state with other contents in IX, IY and the shadow bank. -/
def State.withZ80Registers (s : State) (ix iy : Word) (shadow : Bank) : State :=
  { s with ix := ix, iy := iy, shadow := shadow }

/-- The driver calling `step()` `n` times, whatever the outcomes; `none` when a call never returns. -/
def driverSteps : Nat → State → Option State
  | 0, s => some s
  | n + 1, s =>
    match Driver.step s with
    | none => none
    | some (t, _) => driverSteps n t

/-! ## What an instruction may change -/

/-- The two halves of a 16-bit register operand (R22). -/
def pairHolds : Pair → Reg8 → Bool
  | .bc, r => r == .b || r == .c
  | .de, r => r == .d || r == .e
  | .hl, r => r == .h || r == .l
  | .sp, _ => false

/-- The two halves of a stack pair (R22). -/
def stackPairHolds : StackPair → Reg8 → Bool
  | .bc, r => r == .b || r == .c
  | .de, r => r == .d || r == .e
  | .hl, r => r == .h || r == .l

/-- The 8-bit registers an instruction writes: its destination, the accumulator for the
accumulator operations but CP (R116), the pairs of a block transfer (R250), all for EXSH (R205). -/
def mayWriteReg8 (i : Instr) (r : Reg8) : Bool :=
  match i with
  | .addR _ | .addAtHL | .addN _ | .addAtXYd _ _ | .adcR _ | .adcAtHL | .adcN _ | .adcAtXYd _ _ => r == .a
  | .subR _ | .subAtHL | .subN _ | .subAtXYd _ _ | .sbcR _ | .sbcAtHL | .sbcN _ | .sbcAtXYd _ _ => r == .a
  | .andR _ | .andAtHL | .andN _ | .andAtXYd _ _ | .xorR _ | .xorAtHL | .xorN _ | .xorAtXYd _ _ => r == .a
  | .orR _ | .orAtHL | .orN _ | .orAtXYd _ _ | .cpl | .daa | .popAF | .inAN _ => r == .a
  | .ldAAtBC | .ldAAtDE | .ldAAtNN _ => r == .a
  | .incR q | .decR q | .ldRR q _ | .ldRAtHL q | .ldRN q _ | .ldRAtXYd q _ _ => r == q
  | .incSS p | .decSS p | .ldDDNN p _ => pairHolds p r
  | .addHLSS _ | .ldHLAtNN _ => r == .h || r == .l
  | .popQQ q => stackPairHolds q r
  | .ldi | .ldd | .ldir | .lddr => r != .a
  | .exsh => true
  | .cpR _ | .cpAtHL | .cpN _ | .cpAtXYd _ _ | .incAtHL | .incAtXYd _ _ | .decAtHL | .decAtXYd _ _
  | .addXYPP _ _ | .incXY _ | .decXY _ | .ldAtHLR _ | .ldAtHLN _ | .ldAtBCA | .ldAtDEA | .ldAtNNA _
  | .ldAtNNHL _ | .ldAtXYdR _ _ _ | .jpNN _ | .jpCCNN _ _ | .callNN _ | .callCCNN _ _ | .ret
  | .retCC _ | .halt | .pushQQ _ | .pushAF | .pushXY _ | .popXY _ | .outNA _ => false

/-- The flags an instruction writes, the table of R32. -/
def mayWriteFlag (v : Variant) (i : Instr) (fl : Flag) : Bool :=
  match i with
  | .addR _ | .addAtHL | .addN _ | .addAtXYd _ _ | .adcR _ | .adcAtHL | .adcN _ | .adcAtXYd _ _ => true
  | .subR _ | .subAtHL | .subN _ | .subAtXYd _ _ | .sbcR _ | .sbcAtHL | .sbcN _ | .sbcAtXYd _ _ => true
  | .andR _ | .andAtHL | .andN _ | .andAtXYd _ _ | .xorR _ | .xorAtHL | .xorN _ | .xorAtXYd _ _ => true
  | .orR _ | .orAtHL | .orN _ | .orAtXYd _ _ | .cpR _ | .cpAtHL | .cpN _ | .cpAtXYd _ _ => true
  | .incR _ | .incAtHL | .incAtXYd _ _ | .decR _ | .decAtHL | .decAtXYd _ _ => fl != .c
  | .addHLSS _ | .addXYPP _ _ => fl == .c || (fl == .h && v == .vz80)
  | .daa => fl != .h
  | .popAF | .exsh => true
  | .incSS _ | .incXY _ | .decSS _ | .decXY _ | .cpl | .ldRR _ _ | .ldRAtHL _ | .ldAtHLR _
  | .ldRN _ _ | .ldAtHLN _ | .ldAAtBC | .ldAAtDE | .ldAtBCA | .ldAtDEA | .ldDDNN _ _ | .ldAAtNN _
  | .ldAtNNA _ | .ldHLAtNN _ | .ldAtNNHL _ | .ldRAtXYd _ _ _ | .ldAtXYdR _ _ _ | .jpNN _
  | .jpCCNN _ _ | .callNN _ | .callCCNN _ _ | .ret | .retCC _ | .halt | .ldi | .ldd | .ldir | .lddr
  | .pushQQ _ | .pushAF | .popQQ _ | .pushXY _ | .popXY _ | .inAN _ | .outNA _ => false

/-- The instructions that write the unnamed bits of F (R31). -/
def mayWriteUnnamedBits (i : Instr) : Bool := i == .popAF || i == .exsh

/-- The instructions that write SP (R24). -/
def mayWriteSP (i : Instr) : Bool :=
  match i with
  | .incSS p | .decSS p | .ldDDNN p _ => p == .sp
  | .callNN _ | .callCCNN _ _ | .ret | .retCC _ => true
  | .pushQQ _ | .pushAF | .pushXY _ | .popQQ _ | .popAF | .popXY _ => true
  | .addR _ | .addAtHL | .addN _ | .addAtXYd _ _ | .adcR _ | .adcAtHL | .adcN _ | .adcAtXYd _ _
  | .subR _ | .subAtHL | .subN _ | .subAtXYd _ _ | .sbcR _ | .sbcAtHL | .sbcN _ | .sbcAtXYd _ _
  | .andR _ | .andAtHL | .andN _ | .andAtXYd _ _ | .xorR _ | .xorAtHL | .xorN _ | .xorAtXYd _ _
  | .orR _ | .orAtHL | .orN _ | .orAtXYd _ _ | .cpR _ | .cpAtHL | .cpN _ | .cpAtXYd _ _ | .incR _
  | .incAtHL | .incAtXYd _ _ | .decR _ | .decAtHL | .decAtXYd _ _ | .addHLSS _ | .addXYPP _ _
  | .incXY _ | .decXY _ | .cpl | .daa | .ldRR _ _ | .ldRAtHL _ | .ldAtHLR _ | .ldRN _ _
  | .ldAtHLN _ | .ldAAtBC | .ldAAtDE | .ldAtBCA | .ldAtDEA | .ldAAtNN _ | .ldAtNNA _ | .ldHLAtNN _
  | .ldAtNNHL _ | .ldRAtXYd _ _ _ | .ldAtXYdR _ _ _ | .exsh | .jpNN _ | .jpCCNN _ _ | .halt | .ldi
  | .ldd | .ldir | .lddr | .inAN _ | .outNA _ => false

/-- The instructions that write IX or IY, and which of them (R26). -/
def mayWriteIndex (i : Instr) (x : IndexReg) : Bool :=
  match i with
  | .addXYPP y _ | .incXY y | .decXY y | .popXY y => x == y
  | .addR _ | .addAtHL | .addN _ | .addAtXYd _ _ | .adcR _ | .adcAtHL | .adcN _ | .adcAtXYd _ _
  | .subR _ | .subAtHL | .subN _ | .subAtXYd _ _ | .sbcR _ | .sbcAtHL | .sbcN _ | .sbcAtXYd _ _
  | .andR _ | .andAtHL | .andN _ | .andAtXYd _ _ | .xorR _ | .xorAtHL | .xorN _ | .xorAtXYd _ _
  | .orR _ | .orAtHL | .orN _ | .orAtXYd _ _ | .cpR _ | .cpAtHL | .cpN _ | .cpAtXYd _ _ | .incR _
  | .incAtHL | .incAtXYd _ _ | .decR _ | .decAtHL | .decAtXYd _ _ | .addHLSS _ | .incSS _
  | .decSS _ | .cpl | .daa | .ldRR _ _ | .ldRAtHL _ | .ldAtHLR _ | .ldRN _ _ | .ldAtHLN _
  | .ldAAtBC | .ldAAtDE | .ldAtBCA | .ldAtDEA | .ldDDNN _ _ | .ldAAtNN _ | .ldAtNNA _ | .ldHLAtNN _
  | .ldAtNNHL _ | .ldRAtXYd _ _ _ | .ldAtXYdR _ _ _ | .exsh | .jpNN _ | .jpCCNN _ _ | .callNN _
  | .callCCNN _ _ | .ret | .retCC _ | .halt | .ldi | .ldd | .ldir | .lddr | .pushQQ _ | .pushAF
  | .popAF | .popQQ _ | .pushXY _ | .inAN _ | .outNA _ => false

/-- The instructions that may set PC otherwise than to `next` (R223). -/
def isControlTransfer (i : Instr) : Bool :=
  match i with
  | .jpNN _ | .jpCCNN _ _ | .callNN _ | .callCCNN _ _ | .ret | .retCC _ => true
  | .addR _ | .addAtHL | .addN _ | .addAtXYd _ _ | .adcR _ | .adcAtHL | .adcN _ | .adcAtXYd _ _
  | .subR _ | .subAtHL | .subN _ | .subAtXYd _ _ | .sbcR _ | .sbcAtHL | .sbcN _ | .sbcAtXYd _ _
  | .andR _ | .andAtHL | .andN _ | .andAtXYd _ _ | .xorR _ | .xorAtHL | .xorN _ | .xorAtXYd _ _
  | .orR _ | .orAtHL | .orN _ | .orAtXYd _ _ | .cpR _ | .cpAtHL | .cpN _ | .cpAtXYd _ _ | .incR _
  | .incAtHL | .incAtXYd _ _ | .decR _ | .decAtHL | .decAtXYd _ _ | .addHLSS _ | .addXYPP _ _
  | .incSS _ | .incXY _ | .decSS _ | .decXY _ | .cpl | .daa | .ldRR _ _ | .ldRAtHL _ | .ldAtHLR _
  | .ldRN _ _ | .ldAtHLN _ | .ldAAtBC | .ldAAtDE | .ldAtBCA | .ldAtDEA | .ldDDNN _ _ | .ldAAtNN _
  | .ldAtNNA _ | .ldHLAtNN _ | .ldAtNNHL _ | .ldRAtXYd _ _ _ | .ldAtXYdR _ _ _ | .exsh | .halt
  | .ldi | .ldd | .ldir | .lddr | .pushQQ _ | .pushAF | .popAF | .popQQ _ | .pushXY _ | .popXY _
  | .inAN _ | .outNA _ => false

/-- The instructions that call the device model (R60). -/
def callsDevice (i : Instr) : Bool :=
  match i with
  | .inAN _ | .outNA _ => true
  | .addR _ | .addAtHL | .addN _ | .addAtXYd _ _ | .adcR _ | .adcAtHL | .adcN _ | .adcAtXYd _ _
  | .subR _ | .subAtHL | .subN _ | .subAtXYd _ _ | .sbcR _ | .sbcAtHL | .sbcN _ | .sbcAtXYd _ _
  | .andR _ | .andAtHL | .andN _ | .andAtXYd _ _ | .xorR _ | .xorAtHL | .xorN _ | .xorAtXYd _ _
  | .orR _ | .orAtHL | .orN _ | .orAtXYd _ _ | .cpR _ | .cpAtHL | .cpN _ | .cpAtXYd _ _ | .incR _
  | .incAtHL | .incAtXYd _ _ | .decR _ | .decAtHL | .decAtXYd _ _ | .addHLSS _ | .addXYPP _ _
  | .incSS _ | .incXY _ | .decSS _ | .decXY _ | .cpl | .daa | .ldRR _ _ | .ldRAtHL _ | .ldAtHLR _
  | .ldRN _ _ | .ldAtHLN _ | .ldAAtBC | .ldAAtDE | .ldAtBCA | .ldAtDEA | .ldDDNN _ _ | .ldAAtNN _
  | .ldAtNNA _ | .ldHLAtNN _ | .ldAtNNHL _ | .ldRAtXYd _ _ _ | .ldAtXYdR _ _ _ | .exsh | .jpNN _
  | .jpCCNN _ _ | .callNN _ | .callCCNN _ _ | .ret | .retCC _ | .halt | .ldi | .ldd | .ldir | .lddr
  | .pushQQ _ | .pushAF | .popAF | .popQQ _ | .pushXY _ | .popXY _ => false

/-- The addresses an instruction stores to, from the state it starts in: every address for which
this holds, and no other. -/
def StoresTo (s : State) (i : Instr) (a : Word) : Prop :=
  match i with
  | .incAtHL | .decAtHL | .ldAtHLR _ | .ldAtHLN _ => a = s.hl
  | .incAtXYd x d | .decAtXYd x d | .ldAtXYdR x d _ => a = s.indexedAddr x d
  | .ldAtBCA => a = s.bc
  | .ldAtDEA => a = s.de
  | .ldAtNNA nn => a = nn
  | .ldAtNNHL nn => a = nn ∨ a = nn + 1
  | .callNN _ | .pushQQ _ | .pushAF | .pushXY _ => a = s.sp - 1 ∨ a = s.sp - 2
  | .callCCNN cc _ => s.cond cc = true ∧ (a = s.sp - 1 ∨ a = s.sp - 2)
  | .ldi | .ldd => a = s.de
  | .ldir => ∃ k, k < s.bc.toNat ∧ a = s.de + BitVec.ofNat 16 k
  | .lddr => ∃ k, k < s.bc.toNat ∧ a = s.de - BitVec.ofNat 16 k
  | .addR _ | .addAtHL | .addN _ | .addAtXYd _ _ | .adcR _ | .adcAtHL | .adcN _ | .adcAtXYd _ _
  | .subR _ | .subAtHL | .subN _ | .subAtXYd _ _ | .sbcR _ | .sbcAtHL | .sbcN _ | .sbcAtXYd _ _
  | .andR _ | .andAtHL | .andN _ | .andAtXYd _ _ | .xorR _ | .xorAtHL | .xorN _ | .xorAtXYd _ _
  | .orR _ | .orAtHL | .orN _ | .orAtXYd _ _ | .cpR _ | .cpAtHL | .cpN _ | .cpAtXYd _ _ | .incR _
  | .decR _ | .addHLSS _ | .addXYPP _ _ | .incSS _ | .incXY _ | .decSS _ | .decXY _ | .cpl | .daa
  | .ldRR _ _ | .ldRAtHL _ | .ldRN _ _ | .ldAAtBC | .ldAAtDE | .ldDDNN _ _ | .ldAAtNN _
  | .ldHLAtNN _ | .ldRAtXYd _ _ _ | .exsh | .jpNN _ | .jpCCNN _ _ | .ret | .retCC _ | .halt
  | .popAF | .popQQ _ | .popXY _ | .inAN _ | .outNA _ => False

/-! ## Results -/

/-- A byte has an even number of set bits (R101), written bit by bit. -/
def EvenParity (v : Byte) : Prop :=
  (v.getLsbD 0 ^^ v.getLsbD 1 ^^ v.getLsbD 2 ^^ v.getLsbD 3 ^^ v.getLsbD 4 ^^ v.getLsbD 5 ^^
    v.getLsbD 6 ^^ v.getLsbD 7) = false

/-- An exact signed result that two's-complement 8-bit numbers hold (R102). -/
def FitsSigned8 (x : Int) : Prop := -128 ≤ x ∧ x ≤ 127

/-- The P flag after an arithmetic operation with result `res` and exact signed result `exact`
(R102, R103). -/
def ArithmeticP (t : State) (res : Byte) (exact : Int) : Prop :=
  match t.variant with
  | .v85 => t.flag .p = true ↔ EvenParity res
  | .vz80 => t.flag .p = true ↔ ¬ FitsSigned8 exact

/-- S and Z follow a result byte (R29), and the unnamed bits of F stay (R31). -/
def SignZeroOf (s t : State) (res : Byte) : Prop :=
  t.flag .s = res.getLsbD 7 ∧ (t.flag .z = true ↔ res = 0) ∧
    ∀ k ∈ [1, 3, 5], t.main.f.getLsbD k = s.main.f.getLsbD k

/-- `t` is `s` after an accumulator operation of the given length: A, F and PC may differ, nothing
else (R116). -/
def OnlyAccumulatorChanges (s t : State) (length : Nat) : Prop :=
  t = { s with main.a := t.main.a, main.f := t.main.f, pc := s.pc + BitVec.ofNat 16 length }

/-- `t` is `s` after a plain advance with only F changed besides (a compare, R116). -/
def OnlyFlagsChange (s t : State) (length : Nat) : Prop :=
  t = { s with main.f := t.main.f, pc := s.pc + BitVec.ofNat 16 length }

/-- `exec i s` adds `v` and `cin` to A (R104, R116). -/
def Adds (i : Instr) (s : State) (v : Byte) (cin : Bool) : Prop :=
  ∃ t, exec i s = .next t ∧ OnlyAccumulatorChanges s t i.length ∧
    t.main.a.toNat = (s.main.a.toNat + v.toNat + cin.toNat) % 256 ∧
    (t.flag .c = true ↔ 256 ≤ s.main.a.toNat + v.toNat + cin.toNat) ∧
    (t.flag .h = true ↔ 16 ≤ s.main.a.toNat % 16 + v.toNat % 16 + cin.toNat) ∧
    SignZeroOf s t t.main.a ∧ ArithmeticP t t.main.a (s.main.a.toInt + v.toInt + cin.toNat)

/-- The flags after subtracting `v` and `bin` from `a`, `res` being the difference (R105): C is the
borrow, H is 1 iff the low nibble borrows nothing. -/
def DifferenceFlags (s t : State) (a v : Byte) (bin : Bool) (res : Byte) : Prop :=
  (t.flag .c = true ↔ a.toNat < v.toNat + bin.toNat) ∧
    (t.flag .h = true ↔ v.toNat % 16 + bin.toNat ≤ a.toNat % 16) ∧
    SignZeroOf s t res ∧ ArithmeticP t res (a.toInt - v.toInt - bin.toNat)

/-- `exec i s` subtracts `v` and `bin` from A (R105, R116). -/
def Subtracts (i : Instr) (s : State) (v : Byte) (bin : Bool) : Prop :=
  ∃ t, exec i s = .next t ∧ OnlyAccumulatorChanges s t i.length ∧
    (t.main.a.toNat : Int) = ((s.main.a.toNat : Int) - v.toNat - bin.toNat) % 256 ∧
    DifferenceFlags s t s.main.a v bin t.main.a

/-- `exec i s` compares A with `v`: the flags of the difference, A as it was (R106, R116). -/
def Compares (i : Instr) (s : State) (v : Byte) : Prop :=
  ∃ t res, exec i s = .next t ∧ OnlyFlagsChange s t i.length ∧
    ((BitVec.toNat res : Nat) : Int) = ((s.main.a.toNat : Int) - v.toNat) % 256 ∧
    DifferenceFlags s t s.main.a v false res

/-- `exec i s` puts `res` in A with the flags of a logical operation (R107, R116). -/
def PutsLogical (i : Instr) (s : State) (res : Byte) : Prop :=
  ∃ t, exec i s = .next t ∧ OnlyAccumulatorChanges s t i.length ∧ t.main.a = res ∧
    t.flag .c = false ∧ t.flag .h = false ∧ SignZeroOf s t res ∧
    (t.flag .p = true ↔ EvenParity res)

/-- The flags of an 8-bit increment (`up`) or decrement of `x` to `res`, C as before (R108, R109). -/
def StepFlags (s t : State) (up : Bool) (x res : Byte) : Prop :=
  t.flag .c = s.flag .c ∧ SignZeroOf s t res ∧
    (t.flag .h = true ↔ if up then x.toNat % 16 = 15 else x.toNat % 16 ≠ 0) ∧
    (match t.variant with
      | .v85 => t.flag .p = true ↔ EvenParity res
      | .vz80 => t.flag .p = true ↔ x = if up then 0x7F else 0x80)

/-- The byte after an increment (`up`) or a decrement, modulo 256 (R108, R109). -/
def stepped (up : Bool) (x : Byte) : Byte := if up then x + 1 else x - 1

/-- `exec i s` steps the register `r` up or down by one (R152, R155). -/
def StepsRegister (i : Instr) (s : State) (r : Reg8) (up : Bool) : Prop :=
  ∃ t, exec i s = .next t ∧ t.reg8 r = stepped up (s.reg8 r) ∧
    StepFlags s t up (s.reg8 r) (t.reg8 r) ∧
    t = { s.setReg8 r (t.reg8 r) with main.f := t.main.f, pc := s.pc + BitVec.ofNat 16 i.length } ∧
    ∀ q, q ≠ r → t.reg8 q = s.reg8 q

/-- `exec i s` steps the memory cell at `addr` up or down by one; no register but F and PC
changes, nor any other cell (R153, R154, R156, R157). -/
def StepsCell (i : Instr) (s : State) (addr : Word) (up : Bool) : Prop :=
  ∃ t, exec i s = .next t ∧ t.read8 addr = stepped up (s.read8 addr) ∧
    (∀ a, a ≠ addr → t.read8 a = s.read8 a) ∧ StepFlags s t up (s.read8 addr) (t.read8 addr) ∧
    t = { s with mem := t.mem, main.f := t.main.f, pc := s.pc + BitVec.ofNat 16 i.length }

/-- The flags of a 16-bit addition: C from bit 15 in both variants, H from bit 11 in VZ80 only
(R110); every other bit of F stays. -/
def WideSumFlags (s t : State) (a b : Word) : Prop :=
  (t.flag .c = true ↔ 65536 ≤ a.toNat + b.toNat) ∧
    (s.variant = .vz80 → (t.flag .h = true ↔ 4096 ≤ a.toNat % 4096 + b.toNat % 4096)) ∧
    (s.variant = .v85 → t.flag .h = s.flag .h) ∧
    ∀ k ∈ [1, 2, 3, 5, 6, 7], t.main.f.getLsbD k = s.main.f.getLsbD k

/-- `exec i s` stores the byte `v` at `addr` and changes nothing else but PC. -/
def StoresByte (i : Instr) (s : State) (addr : Word) (v : Byte) : Prop :=
  ∃ t, exec i s = .next t ∧ t.read8 addr = v ∧ (∀ a, a ≠ addr → t.read8 a = s.read8 a) ∧
    t = { s with mem := t.mem, pc := s.pc + BitVec.ofNat 16 i.length }

/-- `exec i s` puts `v` in the register `r` and changes nothing else but PC. -/
def LoadsByte (i : Instr) (s : State) (r : Reg8) (v : Byte) : Prop :=
  ∃ t, exec i s = .next t ∧ t.reg8 r = v ∧ (∀ q, q ≠ r → t.reg8 q = s.reg8 q) ∧
    t = { s.setReg8 r v with pc := s.pc + BitVec.ofNat 16 i.length }

/-- The word `w` lies on the stack of `t`, whose SP is two below that of `s`: high byte at SP-1, low
byte at SP-2 of `s`, no other cell changed (R261). -/
def Pushed (s t : State) (w : Word) : Prop :=
  t.sp = s.sp - 2 ∧ t.read8 (s.sp - 1) = high8 w ∧ t.read8 (s.sp - 2) = low8 w ∧
    ∀ a, a ≠ s.sp - 1 → a ≠ s.sp - 2 → t.read8 a = s.read8 a

/-- The word on top of the stack: low byte at SP, high byte at SP+1 (R262). -/
def topOfStack (s : State) : Word := joinBytes (s.read8 (s.sp + 1)) (s.read8 s.sp)

/-- `exec i s` pushes the word `w`, and a POP of any pair, of AF or of an index register right after
it loads `w` there, restores SP and changes nothing else but PC; the pop leaves memory as the push
left it (R262 to R268). -/
def PopsBack (i : Instr) (s : State) (w : Word) : Prop :=
  ∃ t, exec i s = .next t ∧
    (∀ p, ∃ u, exec (.popQQ p) t = .next u ∧ u.stackPair p = w ∧
      u = { s.setStackPair p w with mem := t.mem, pc := t.pc + 1 }) ∧
    (exec .popAF t = .next { s with
      main.a := high8 w, main.f := low8 w, mem := t.mem, pc := t.pc + 1 }) ∧
    (∀ x, ∃ u, exec (.popXY x) t = .next u ∧ u.index x = w ∧
      u = { s.setIndex x w with mem := t.mem, pc := t.pc + 2 })

/-- A byte of two decimal digits (00_scope.md R16, BCD). -/
def IsBcd (x : Byte) : Prop := x.toNat % 16 ≤ 9 ∧ x.toNat / 16 ≤ 9

/-- The number two decimal digits stand for. -/
def bcdValue (x : Byte) : Nat := 10 * (x.toNat / 16) + x.toNat % 16

end Sys2Proof.Machine
end

