-- ==== Sys2Proof/Certificates/Slice0/Obligations.lean ====
section
/-! DEFINITION. The statements about CORE for the provers. Each docstring names the rules of spec/
it formalises; a clause that rests on a decision of the spec's own (D<n>) or of the model's (log n)
says so. -/

open Sys2Proof Sys2Proof.Machine

/-! ## Encoding and decoding -/

/-- Every instruction a variant has, encoded and followed by any two bytes, decodes to itself, with
every operand at every value (R71 to R86; byte values D1). -/
def Obligations.EncodedInstructionDecodesBack : Prop :=
  ∀ (v : Variant) (i : Instr) (x y b0 b1 b2 : Byte) (rest : List Byte),
    WellFormed v i → encode i ++ [x, y] = b0 :: b1 :: b2 :: rest → decode v b0 b1 b2 = .ok i

/-- Whatever decodes is an instruction of the variant, 1 to 3 bytes long, and the bytes are its
encoding: no byte sequence has a meaning the tables do not give it (R70, R78, R82; D1). -/
def Obligations.DecodedBytesAreTheEncoding : Prop :=
  ∀ (v : Variant) (b0 b1 b2 : Byte) (i : Instr), decode v b0 b1 b2 = .ok i →
    WellFormed v i ∧ encode i = [b0, b1, b2].take i.length ∧ 1 ≤ i.length ∧ i.length ≤ 3

/-- Words written out from the spec's encodings decode to the instruction they stand for, at least
one of each family (R83 to R86; D1). -/
def Obligations.SpecWordsDecode : Prop :=
  decode .v85 0x80 0x00 0x00 = .ok (.addR .b) ∧
  decode .vz80 0xDD 0xBE 0xF0 = .ok (.cpAtXYd .ix 0xF0) ∧
  decode .v85 0xDE 0x01 0x00 = .ok (.sbcN 0x01) ∧
  decode .vz80 0xFD 0x35 0xFF = .ok (.decAtXYd .iy 0xFF) ∧
  decode .vz80 0xDD 0x29 0x00 = .ok (.addXYPP .ix .xy) ∧
  decode .v85 0x27 0x00 0x00 = .ok .daa ∧
  decode .v85 0x41 0x00 0x00 = .ok (.ldRR .b .c) ∧
  decode .v85 0x2A 0x34 0x12 = .ok (.ldHLAtNN 0x1234) ∧
  decode .vz80 0xD9 0x00 0x00 = .ok .exsh ∧
  decode .v85 0xFC 0x00 0x30 = .ok (.callCCNN .m 0x3000) ∧
  decode .v85 0x76 0x00 0x00 = .ok .halt ∧
  decode .vz80 0xED 0xB8 0x00 = .ok .lddr ∧
  decode .v85 0xF5 0x00 0x00 = .ok .pushAF ∧
  decode .vz80 0xFD 0xE1 0x00 = .ok (.popXY .iy) ∧
  decode .v85 0xD3 0x20 0x00 = .ok (.outNA 0x20)

/-- DecodeError(IllegalOperand) is reported exactly for 0xDD 0x76 and 0xFD 0x76 in VZ80 (R282, R287;
which bytes they are is D17). -/
def Obligations.IllegalOperandIsExactlyTwoBytePairs : Prop :=
  ∀ (v : Variant) (b0 b1 b2 : Byte), decode v b0 b1 b2 = .error .illegalOperand ↔
    v = .vz80 ∧ (b0 = 0xDD ∨ b0 = 0xFD) ∧ b1 = 0x76

/-- DecodeError(IllegalOpcode) is reported exactly for the 37 first bytes V85 does not admit, the
29 VZ80 does not, and in VZ80 every second byte outside the two lists of R85 and R86 (R83 to R87;
byte values D1). -/
def Obligations.IllegalOpcodeIsExactlyTheUnlistedBytes : Prop :=
  (∀ b0 b1 b2 : Byte, decode .v85 b0 b1 b2 = .error .illegalOpcode ↔
    b0 ∈ ([0x00, 0x02, 0x07, 0x08, 0x0A, 0x0F, 0x10, 0x12, 0x17, 0x18, 0x1A, 0x1F, 0x20, 0x28, 0x30,
      0x37, 0x38, 0x3F, 0xC7, 0xCB, 0xCF, 0xD7, 0xD9, 0xDD, 0xDF, 0xE3, 0xE7, 0xE9, 0xEB, 0xED, 0xEF,
      0xF3, 0xF7, 0xF9, 0xFB, 0xFD, 0xFF] : List Byte)) ∧
  (∀ b0 b1 b2 : Byte, b0 ∉ ([0xDD, 0xFD, 0xED] : List Byte) →
    (decode .vz80 b0 b1 b2 = .error .illegalOpcode ↔
      b0 ∈ ([0x00, 0x07, 0x08, 0x0F, 0x10, 0x17, 0x18, 0x1F, 0x20, 0x28, 0x30, 0x37, 0x38, 0x3F, 0xC7,
        0xCB, 0xCF, 0xD7, 0xDF, 0xE3, 0xE7, 0xE9, 0xEB, 0xEF, 0xF3, 0xF7, 0xF9, 0xFB, 0xFF] : List Byte))) ∧
  (∀ b0 b1 b2 : Byte, b0 ∈ ([0xDD, 0xFD] : List Byte) →
    (decode .vz80 b0 b1 b2 = .error .illegalOpcode ↔
      b1 ≠ 0x76 ∧ b1 ∉ ([0x09, 0x19, 0x29, 0x39, 0x23, 0x2B, 0x34, 0x35, 0x46, 0x4E, 0x56, 0x5E, 0x66,
        0x6E, 0x7E, 0x70, 0x71, 0x72, 0x73, 0x74, 0x75, 0x77, 0x86, 0x8E, 0x96, 0x9E, 0xA6, 0xAE, 0xB6,
        0xBE, 0xE1, 0xE5] : List Byte))) ∧
  (∀ b1 b2 : Byte, decode .vz80 0xED b1 b2 = .error .illegalOpcode ↔
    b1 ∉ ([0xA0, 0xA8, 0xB0, 0xB8] : List Byte))

/-- The rows of one variant never overlap: every byte sequence is matched by at most one row of the
table it is looked up in, the constraints applied (R82). -/
def Obligations.OpcodeRowsNeverOverlap : Prop :=
  ∀ (v : Variant) (b0 b1 b2 : Byte),
    (oneByteRows.filterMap (Row.decode v b0.toNat b0 b1 b2)).length ≤ 1 ∧
    (twoByteRows.filterMap (Row.decode v (b0.toNat * 256 + b1.toNat) b0 b1 b2)).length ≤ 1

/-! ## The step -/

/-- While RUNNING, when the three bytes at PC decode to `i`, a step is `exec i` of that same state:
the step adds nothing before or after it (R220, R221). -/
def Obligations.StepRunsTheDecodedInstruction : Prop :=
  ∀ (s : State) (i : Instr), s.run = .running →
    decode s.variant (s.read8 s.pc) (s.read8 (s.pc + 1)) (s.read8 (s.pc + 2)) = .ok i →
    step s = exec i s

/-- While RUNNING, when the bytes at PC decode to nothing, the step raises the DecodeError with its
reason and the driver finds the machine exactly as before the step (R281, R282, R283; D16). -/
def Obligations.DecodeErrorLeavesTheMachine : Prop :=
  ∀ (s : State) (reason : DecodeReason), s.run = .running →
    decode s.variant (s.read8 s.pc) (s.read8 (s.pc + 1)) (s.read8 (s.pc + 2)) = .error reason →
    step s = .fault (.decodeError reason) ∧
      Driver.step s = some (s, .error (.decodeError reason))

/-- `step()` while HALTED changes nothing and returns Halted (R233; D23). -/
def Obligations.HaltedStepChangesNothing : Prop :=
  ∀ s : State, s.run = .halted → step s = .next s ∧ Driver.step s = some (s, .halted)

/-- A step is never refused, and faults only by a DecodeError of its own bytes, or, in IN and OUT,
by the device model failing or blocking (R280; "No other instruction can fail"). That a failure or a
blocked call comes only from a listed answer, so that an empty list never fails, is the model's
choice (log 4, marked unsafe); that a blocked call is a fault is the model's choice (log 7). -/
def Obligations.StepStopsOnlyAsTheSpecSays : Prop :=
  (∀ (s : State) (r : Refusal), step s ≠ .refused r) ∧
  (∀ (s : State) (reason : DecodeReason), step s = .fault (.decodeError reason) →
    s.run = .running ∧
      decode s.variant (s.read8 s.pc) (s.read8 (s.pc + 1)) (s.read8 (s.pc + 2)) = .error reason) ∧
  (∀ (s : State) (i : Instr) (f : Fault), exec i s = .fault f → callsDevice i = true ∧
    ((∃ e rest, s.portReplies = .failed e :: rest ∧ f = .portFailure e) ∨
      (∃ rest, s.portReplies = .blocked :: rest ∧ f = .portBlocked)))

/-- Every step keeps memory in its canonical form and, in V85, leaves IX, IY and the shadow bank,
which V85 does not have, at zero (R26, R27, R50; the canonical form is the model's, log 3). -/
def Obligations.InvariantKeptByEveryStep : Prop :=
  ∀ s t : State, s.Inv → step s = .next t → t.Inv

/-- The invariant holds right after construction in either variant (R38, D19). -/
def Obligations.InvariantHoldsAtReset : Prop :=
  State.reset.Inv ∧ ∀ v replies, (Driver.construct v replies []).Inv

/-- VARIANT never changes, and a step neither wakes a HALTED machine nor halts a RUNNING one but by
HALT (R2, R34). -/
def Obligations.OnlyHaltStopsTheMachine : Prop :=
  (∀ s t : State, step s = .next t → t.variant = s.variant) ∧
  (∀ s t : State, step s = .next t → s.run = .halted → t.run = .halted) ∧
  (∀ (s t : State) (i : Instr), s.run = .running → exec i s = .next t →
    (t.run = .halted ↔ i = .halt))

/-- In V85 nothing depends on IX, IY or the shadow bank and nothing changes them: a step of a
machine that differs in them alone differs in them alone (R26, R27). -/
def Obligations.V85IgnoresTheZ80Registers : Prop :=
  ∀ (s : State) (ix iy : Word) (shadow : Bank), s.variant = .v85 →
    step (s.withZ80Registers ix iy shadow) =
      mapNext (fun t => t.withZ80Registers ix iy shadow) (step s)

/-- Every completed instruction that is not a control transfer sets PC to `next`, the address after
its own bytes (R222, R223). -/
def Obligations.PcAdvancesByTheLength : Prop :=
  ∀ (i : Instr) (s t : State), exec i s = .next t → isControlTransfer i = false →
    t.pc = s.pc + BitVec.ofNat 16 i.length

/-! ## What an instruction leaves unchanged -/

/-- A completed instruction leaves every flag it is not documented to write as it was (R32, R114). -/
def Obligations.UndocumentedFlagsStay : Prop :=
  ∀ (i : Instr) (s t : State) (fl : Flag), exec i s = .next t → mayWriteFlag s.variant i fl = false →
    t.flag fl = s.flag fl

/-- Bits 5, 3 and 1 of F are storage: only POP AF and EXSH change them (R31; D5). -/
def Obligations.UnnamedBitsAreStorage : Prop :=
  ∀ (i : Instr) (s t : State), exec i s = .next t → mayWriteUnnamedBits i = false →
    ∀ k ∈ [1, 3, 5], t.main.f.getLsbD k = s.main.f.getLsbD k

/-- A completed instruction leaves every 8-bit register but its destinations as it was, H and L
included where they only address memory (R116, R118, R183, R250; IX and IY are the next statement's). -/
def Obligations.OtherRegistersStay : Prop :=
  ∀ (i : Instr) (s t : State) (r : Reg8), exec i s = .next t → mayWriteReg8 i r = false →
    t.reg8 r = s.reg8 r

/-- SP is written by the stack instructions, calls, returns and the 16-bit forms that name it; IX and
IY by ADD, INC, DEC and POP of them; the shadow bank by EXSH alone; the device model is called by
IN and OUT alone (R24, R26, R27, R60). -/
def Obligations.PointersShadowAndPortsStay : Prop :=
  ∀ (i : Instr) (s t : State), exec i s = .next t →
    (mayWriteSP i = false → t.sp = s.sp) ∧
    (∀ x, mayWriteIndex i x = false → t.index x = s.index x) ∧
    (i ≠ .exsh → t.shadow = s.shadow) ∧
    (callsDevice i = false → t.portReplies = s.portReplies ∧ t.portCalls = s.portCalls ∧
      t.portTrace = s.portTrace)

/-- Every byte of memory outside the addresses a completed instruction stores to reads as before,
the addresses computed from the state the instruction starts in (R50: "No side effects beyond the
target location"). -/
def Obligations.MemoryOutsideTheStoreStays : Prop :=
  ∀ (i : Instr) (s t : State) (a : Word), exec i s = .next t → ¬ StoresTo s i a →
    t.read8 a = s.read8 a

/-! ## Arithmetic and logic -/

/-- ADD and ADC in their four operand forms complete in every state: A is the sum modulo 256, the
five flags are those of the sum, nothing else changes (R104, R116, R120 to R127; H with the
incoming carry is the spec's derivation, overflow its formula R102). -/
def Obligations.AddAndAdcCompute : Prop :=
  ∀ s : State,
    (∀ r, Adds (.addR r) s (s.reg8 r) false) ∧ Adds .addAtHL s (s.read8 s.hl) false ∧
    (∀ n, Adds (.addN n) s n false) ∧
    (∀ x d, Adds (.addAtXYd x d) s (s.read8 (s.indexedAddr x d)) false) ∧
    (∀ r, Adds (.adcR r) s (s.reg8 r) (s.flag .c)) ∧
    Adds .adcAtHL s (s.read8 s.hl) (s.flag .c) ∧ (∀ n, Adds (.adcN n) s n (s.flag .c)) ∧
    (∀ x d, Adds (.adcAtXYd x d) s (s.read8 (s.indexedAddr x d)) (s.flag .c))

/-- SUB, SBC and CP in their four operand forms complete in every state: the difference modulo 256, C
the borrow, H the adder's carry out of bit 3; CP leaves A (R105, R106, R116, R128 to R135, R148 to
R151; H is the spec's decision D6). -/
def Obligations.SubSbcAndCpCompute : Prop :=
  ∀ s : State,
    ((∀ r, Subtracts (.subR r) s (s.reg8 r) false) ∧ Subtracts .subAtHL s (s.read8 s.hl) false ∧
      (∀ n, Subtracts (.subN n) s n false) ∧
      (∀ x d, Subtracts (.subAtXYd x d) s (s.read8 (s.indexedAddr x d)) false)) ∧
    ((∀ r, Subtracts (.sbcR r) s (s.reg8 r) (s.flag .c)) ∧
      Subtracts .sbcAtHL s (s.read8 s.hl) (s.flag .c) ∧
      (∀ n, Subtracts (.sbcN n) s n (s.flag .c)) ∧
      (∀ x d, Subtracts (.sbcAtXYd x d) s (s.read8 (s.indexedAddr x d)) (s.flag .c))) ∧
    ((∀ r, Compares (.cpR r) s (s.reg8 r)) ∧ Compares .cpAtHL s (s.read8 s.hl) ∧
      (∀ n, Compares (.cpN n) s n) ∧
      (∀ x d, Compares (.cpAtXYd x d) s (s.read8 (s.indexedAddr x d))))

/-- AND, XOR and OR in their four operand forms complete in every state: A is the bitwise result, C
and H are 0, S and Z follow it and P is its parity in both variants (R107, R116, R136 to R147). -/
def Obligations.LogicalOperationsCompute : Prop :=
  ∀ s : State,
    ((∀ r, PutsLogical (.andR r) s (s.main.a &&& s.reg8 r)) ∧
      PutsLogical .andAtHL s (s.main.a &&& s.read8 s.hl) ∧
      (∀ n, PutsLogical (.andN n) s (s.main.a &&& n)) ∧
      (∀ x d, PutsLogical (.andAtXYd x d) s (s.main.a &&& s.read8 (s.indexedAddr x d)))) ∧
    ((∀ r, PutsLogical (.xorR r) s (s.main.a ^^^ s.reg8 r)) ∧
      PutsLogical .xorAtHL s (s.main.a ^^^ s.read8 s.hl) ∧
      (∀ n, PutsLogical (.xorN n) s (s.main.a ^^^ n)) ∧
      (∀ x d, PutsLogical (.xorAtXYd x d) s (s.main.a ^^^ s.read8 (s.indexedAddr x d)))) ∧
    ((∀ r, PutsLogical (.orR r) s (s.main.a ||| s.reg8 r)) ∧
      PutsLogical .orAtHL s (s.main.a ||| s.read8 s.hl) ∧
      (∀ n, PutsLogical (.orN n) s (s.main.a ||| n)) ∧
      (∀ x d, PutsLogical (.orAtXYd x d) s (s.main.a ||| s.read8 (s.indexedAddr x d))))

/-- 8-bit INC and DEC of a register, of the cell at HL and of an indexed cell complete in every
state: the value steps by one modulo 256, S, Z, H and P are written, C stays (R108, R109, R152 to
R157; P and H are the spec's decisions D6, D7). -/
def Obligations.IncAndDecCompute : Prop :=
  ∀ s : State,
    (∀ r, StepsRegister (.incR r) s r true ∧ StepsRegister (.decR r) s r false) ∧
    StepsCell .incAtHL s s.hl true ∧ StepsCell .decAtHL s s.hl false ∧
    (∀ x d, StepsCell (.incAtXYd x d) s (s.indexedAddr x d) true ∧
      StepsCell (.decAtXYd x d) s (s.indexedAddr x d) false)

/-- The 16-bit additions complete in every state: HL or the index register receives the sum modulo
65,536, with the flags of R110, and nothing else changes (R110, R160, R161; V85's flags are the
spec's decision D8). -/
def Obligations.WideAdditionsCompute : Prop :=
  ∀ s : State,
    (∀ p, ∃ t, exec (.addHLSS p) s = .next t ∧
      t.hl.toNat = (s.hl.toNat + (s.pair p).toNat) % 65536 ∧ WideSumFlags s t s.hl (s.pair p) ∧
      t = { s with main.h := t.main.h, main.l := t.main.l, main.f := t.main.f, pc := s.pc + 1 }) ∧
    (∀ x p, ∃ t, exec (.addXYPP x p) s = .next t ∧
      (t.index x).toNat = ((s.index x).toNat + (s.indexPair x p).toNat) % 65536 ∧
      WideSumFlags s t (s.index x) (s.indexPair x p) ∧
      t = { s.setIndex x (t.index x) with main.f := t.main.f, pc := s.pc + 2 })

/-- Wherever a 16-bit register is incremented or decremented it wraps modulo 65,536 and no flag
changes: INC and DEC of a pair, SP, IX or IY complete in every state and change nothing but that
register and PC; a block step moves HL, DE and BC, and a push and a pop move SP, the same way (R23;
R162 to R165, R250, R261, R262; that HL, DE and BC are the block step's pairs is the spec's decision
D12, that INC and DEC of IX and IY exist is D21). -/
def Obligations.PairStepsWrapWithoutFlags : Prop :=
  ∀ s : State,
    (∀ p, ∃ t u, exec (.incSS p) s = .next t ∧ exec (.decSS p) s = .next u ∧
      (t.pair p).toNat = ((s.pair p).toNat + 1) % 65536 ∧
      (u.pair p).toNat = ((s.pair p).toNat + 65535) % 65536 ∧
      (∀ q, q ≠ p → t.pair q = s.pair q ∧ u.pair q = s.pair q) ∧
      t = { s with main := { t.main with a := s.main.a, f := s.main.f }, sp := t.sp, pc := s.pc + 1 } ∧
      u = { s with main := { u.main with a := s.main.a, f := s.main.f }, sp := u.sp, pc := s.pc + 1 }) ∧
    (∀ x, ∃ t u, exec (.incXY x) s = .next t ∧ exec (.decXY x) s = .next u ∧
      (t.index x).toNat = ((s.index x).toNat + 1) % 65536 ∧
      (u.index x).toNat = ((s.index x).toNat + 65535) % 65536 ∧
      t = { s.setIndex x (t.index x) with pc := s.pc + 2 } ∧
      u = { s.setIndex x (u.index x) with pc := s.pc + 2 }) ∧
    (∀ w, (Direction.up.move w).toNat = (w.toNat + 1) % 65536 ∧
      (Direction.down.move w).toNat = (w.toNat + 65535) % 65536) ∧
    (∀ dir, (s.blockStep dir).hl = dir.move s.hl ∧ (s.blockStep dir).de = dir.move s.de ∧
      (s.blockStep dir).bc = Direction.down.move s.bc ∧ (s.blockStep dir).main.f = s.main.f) ∧
    (∀ w, (s.push16 w).sp = Direction.down.move (Direction.down.move s.sp) ∧
      (s.push16 w).main = s.main) ∧
    s.pop16.2.sp = Direction.up.move (Direction.up.move s.sp) ∧ s.pop16.2.main = s.main

/-- CPL complements A and changes no flag; twice restores A (R111, R170; V85 by decision D10). -/
def Obligations.ComplementIsAnInvolution : Prop :=
  ∀ s : State, ∃ t u, exec .cpl s = .next t ∧ exec .cpl t = .next u ∧
    t = { s with main.a := t.main.a, pc := s.pc + 1 } ∧
    t.main.a.toNat = 255 - s.main.a.toNat ∧ u.main.a = s.main.a

/-- DAA completes in every state and applies the correction of R112 mechanically: 6 to the low nibble
when it exceeds 9 or H is set, then 0x60 when the high nibble exceeds 9, C is set or the first
correction carried; C gathers the carries, S, Z and P (parity, both variants) follow the result,
H stays (R112, R171; the points D11 decides are the spec's own). -/
def Obligations.DecimalAdjustComputes : Prop :=
  ∀ s : State, ∃ t, exec .daa s = .next t ∧ OnlyAccumulatorChanges s t 1 ∧
    t.flag .h = s.flag .h ∧ SignZeroOf s t t.main.a ∧ (t.flag .p = true ↔ EvenParity t.main.a) ∧
    ∃ low high : Nat,
      (low = if 9 < s.main.a.toNat % 16 ∨ s.flag .h = true then 6 else 0) ∧
      (high = if 9 < (s.main.a.toNat + low) % 256 / 16 ∨ s.flag .c = true ∨
        256 ≤ s.main.a.toNat + low then 0x60 else 0) ∧
      t.main.a.toNat = (s.main.a.toNat + low + high) % 256 ∧
      (t.flag .c = true ↔ s.flag .c = true ∨ 256 ≤ s.main.a.toNat + low ∨
        256 ≤ (s.main.a.toNat + low) % 256 + high)

/-- ADC of two bytes of two decimal digits, then DAA, gives the decimal sum of the two numbers and
the incoming carry, its hundreds in C (R112, D11: "with it all 20,000 sums ... are right"). -/
def Obligations.DecimalAdditionIsExact : Prop :=
  ∀ (s : State) (n : Byte), IsBcd s.main.a → IsBcd n → ∃ t u,
    exec (.adcN n) s = .next t ∧ exec .daa t = .next u ∧ IsBcd u.main.a ∧
    bcdValue u.main.a = (bcdValue s.main.a + bcdValue n + (s.flag .c).toNat) % 100 ∧
    (u.flag .c = true ↔ 100 ≤ bcdValue s.main.a + bcdValue n + (s.flag .c).toNat)

/-- A low-byte ADD, then a high-byte ADC on a new A, gives the 16-bit sum and its carry, and SUB
then SBC the 16-bit difference and its borrow (R113 (f), R166). -/
def Obligations.ByteChainsGiveWideSums : Prop :=
  ∀ (s : State) (lo hi : Byte) (w : Word), s.main.a = low8 w → ∃ t u t' u',
    exec (.addN lo) s = .next t ∧ exec (.adcN hi) { t with main.a := high8 w } = .next u ∧
    (joinBytes u.main.a t.main.a).toNat = (w.toNat + (joinBytes hi lo).toNat) % 65536 ∧
    (u.flag .c = true ↔ 65536 ≤ w.toNat + (joinBytes hi lo).toNat) ∧
    exec (.subN lo) s = .next t' ∧ exec (.sbcN hi) { t' with main.a := high8 w } = .next u' ∧
    joinBytes u'.main.a t'.main.a = w - joinBytes hi lo ∧
    (u'.flag .c = true ↔ w.toNat < (joinBytes hi lo).toNat)

/-- The laws of R113 (c) and (d) for all bytes: C of an addition without carry, C of a subtraction
without borrow, and INC and DEC undoing each other's value. -/
def Obligations.ByteArithmeticLaws : Prop :=
  ∀ (v : Variant) (a b x : Byte),
    ((add8 v a b false).2.c = some true ↔ 255 < a.toNat + b.toNat) ∧
    ((sub8 v a b false).2.c = some true ↔ a.toNat < b.toNat) ∧
    (inc8 v (dec8 v x).1).1 = x ∧ (dec8 v (inc8 v x).1).1 = x

/-! ## Moves, loads and stores -/

/-- The 8-bit loads complete in every state: the destination register receives the source byte, the
address taken from the old registers, and nothing else changes (R187, R188, R190, R192, R193, R197,
R201). -/
def Obligations.ByteLoadsComplete : Prop :=
  ∀ s : State,
    (∀ rd rs, LoadsByte (.ldRR rd rs) s rd (s.reg8 rs)) ∧
    (∀ r, LoadsByte (.ldRAtHL r) s r (s.read8 s.hl)) ∧
    (∀ r n, LoadsByte (.ldRN r n) s r n) ∧
    LoadsByte .ldAAtBC s .a (s.read8 s.bc) ∧ LoadsByte .ldAAtDE s .a (s.read8 s.de) ∧
    (∀ nn, LoadsByte (.ldAAtNN nn) s .a (s.read8 nn)) ∧
    (∀ r x d, LoadsByte (.ldRAtXYd r x d) s r (s.read8 (s.indexedAddr x d)))

/-- The indexed address is the index register plus the displacement read as a signed number from
-128 to 127, modulo 65,536 (R80, R184). -/
def Obligations.IndexedAddressIsSigned : Prop :=
  ∀ (s : State) (x : IndexReg) (d : Byte),
    ((s.indexedAddr x d).toNat : Int) = ((s.index x).toNat + d.toInt) % 65536 ∧
    d.toInt = if d.toNat < 128 then (d.toNat : Int) else d.toNat - 256

/-- The 8-bit stores complete in every state: the addressed cell receives the byte, every other cell
reads as before, and nothing else but PC changes (R189, R191, R194, R195, R198, R202). -/
def Obligations.ByteStoresComplete : Prop :=
  ∀ s : State,
    (∀ r, StoresByte (.ldAtHLR r) s s.hl (s.reg8 r)) ∧
    (∀ n, StoresByte (.ldAtHLN n) s s.hl n) ∧
    StoresByte .ldAtBCA s s.bc s.main.a ∧ StoresByte .ldAtDEA s s.de s.main.a ∧
    (∀ nn, StoresByte (.ldAtNNA nn) s nn s.main.a) ∧
    (∀ x d r, StoresByte (.ldAtXYdR x d r) s (s.indexedAddr x d) (s.reg8 r))

/-- The 16-bit loads and the store complete in every state, low byte at the address and high byte at
the next one modulo 65,536 (R196, R199, R200). -/
def Obligations.WordLoadsAndStoreComplete : Prop :=
  ∀ (s : State) (nn : Word),
    (∀ p, ∃ t, exec (.ldDDNN p nn) s = .next t ∧ t.pair p = nn ∧
      t = { s.setPair p nn with pc := s.pc + 3 }) ∧
    (∃ t, exec (.ldHLAtNN nn) s = .next t ∧
      t = { s with main.l := s.read8 nn, main.h := s.read8 (nn + 1), pc := s.pc + 3 }) ∧
    (∃ t, exec (.ldAtNNHL nn) s = .next t ∧ t.read8 nn = s.main.l ∧ t.read8 (nn + 1) = s.main.h ∧
      (∀ a, a ≠ nn → a ≠ nn + 1 → t.read8 a = s.read8 a) ∧
      t = { s with mem := t.mem, pc := s.pc + 3 })

/-- EXSH completes in every state: the two banks swap, F and the accumulator included, nothing else
but PC changes, and two in a row restore both banks (R205; one instruction on all eight cells is
the spec's decision D13). -/
def Obligations.ShadowExchangeSwapsBothBanks : Prop :=
  ∀ s : State, ∃ t u, exec .exsh s = .next t ∧ exec .exsh t = .next u ∧
    t = { s with main := s.shadow, shadow := s.main, pc := s.pc + 1 } ∧
    u = { s with pc := s.pc + 2 }

/-! ## Control transfer -/

/-- The condition table: each code and the flag value it is true for (R76, R224; the numbering is
D26). -/
def Obligations.ConditionsTestTheirFlag : Prop :=
  ∀ s : State,
    (s.cond (Cond.ofCode 0) = true ↔ s.flag .z = false) ∧
    (s.cond (Cond.ofCode 1) = true ↔ s.flag .z = true) ∧
    (s.cond (Cond.ofCode 2) = true ↔ s.flag .c = false) ∧
    (s.cond (Cond.ofCode 3) = true ↔ s.flag .c = true) ∧
    (s.cond (Cond.ofCode 4) = true ↔ s.flag .p = false) ∧
    (s.cond (Cond.ofCode 5) = true ↔ s.flag .p = true) ∧
    (s.cond (Cond.ofCode 6) = true ↔ s.flag .s = false) ∧
    (s.cond (Cond.ofCode 7) = true ↔ s.flag .s = true)

/-- The flags' places in F: S 7, Z 6, H 4, P 2, C 0 in both variants (R30; the spec's decision D4). -/
def Obligations.FlagLayoutInBothVariants : Prop :=
  ∀ s : State,
    s.flag .s = s.main.f.getLsbD 7 ∧ s.flag .z = s.main.f.getLsbD 6 ∧
    s.flag .h = s.main.f.getLsbD 4 ∧ s.flag .p = s.main.f.getLsbD 2 ∧
    s.flag .c = s.main.f.getLsbD 0

/-- Jumps complete in every state and change PC alone: to `nn` when unconditional or when the
condition holds, else past the three bytes (R226, R227, R235). -/
def Obligations.JumpsChangeOnlyPc : Prop :=
  ∀ (s : State) (nn : Word),
    exec (.jpNN nn) s = .next { s with pc := nn } ∧
    (∀ cc, s.cond cc = true → exec (.jpCCNN cc nn) s = .next { s with pc := nn }) ∧
    (∀ cc, s.cond cc = false → exec (.jpCCNN cc nn) s = .next { s with pc := s.pc + 3 })

/-- Calls complete in every state: the address of the following instruction is pushed and PC is the
target, when unconditional or when the condition holds; else PC alone moves past the three bytes
(R228, R229; that `next` is what is pushed is the spec's decision D15). -/
def Obligations.CallsPushTheFollowingAddress : Prop :=
  ∀ (s : State) (nn : Word),
    (∃ t, exec (.callNN nn) s = .next t ∧ Pushed s t (s.pc + 3) ∧
      t = { s with sp := t.sp, mem := t.mem, pc := nn }) ∧
    (∀ cc, s.cond cc = true → ∃ t, exec (.callCCNN cc nn) s = .next t ∧ Pushed s t (s.pc + 3) ∧
      t = { s with sp := t.sp, mem := t.mem, pc := nn }) ∧
    (∀ cc, s.cond cc = false → exec (.callCCNN cc nn) s = .next { s with pc := s.pc + 3 })

/-- Returns complete in every state: PC is the word on top of the stack and SP two higher, when
unconditional or when the condition holds; else PC alone moves past the byte; memory stays (R230,
R231). -/
def Obligations.ReturnsPopThePc : Prop :=
  ∀ s : State,
    exec .ret s = .next { s with pc := topOfStack s, sp := s.sp + 2 } ∧
    (∀ cc, s.cond cc = true →
      exec (.retCC cc) s = .next { s with pc := topOfStack s, sp := s.sp + 2 }) ∧
    (∀ cc, s.cond cc = false → exec (.retCC cc) s = .next { s with pc := s.pc + 1 })

/-- RET right after CALL resumes behind the CALL with SP as it was, and only the two stack bytes
differ from the state before (R228, R230, R234). -/
def Obligations.ReturnUndoesCall : Prop :=
  ∀ (s : State) (nn : Word), ∃ t u, exec (.callNN nn) s = .next t ∧ exec .ret t = .next u ∧
    u = { s with mem := u.mem, pc := s.pc + 3 } ∧
    ∀ a, a ≠ s.sp - 1 → a ≠ s.sp - 2 → u.read8 a = s.read8 a

/-- HALT completes in every state: RUN is HALTED, PC is the address after it, nothing else changes
(R232; PC is the spec's decision D29). -/
def Obligations.HaltEntersHalted : Prop :=
  ∀ s : State, exec .halt s = .next { s with run := .halted, pc := s.pc + 1 }

/-! ## Block transfer -/

/-- LDI and LDD complete in every state: one byte goes from the cell at HL to the cell at DE, HL and DE
move by one up or down, BC counts down, all modulo 65,536 and with BC not tested; no flag, no other
register and no other cell changes (R250 to R252, R255; the pairs are the spec's decision D12). -/
def Obligations.SingleTransfersMoveOneByte : Prop :=
  ∀ s : State, ∃ t u,
    exec .ldi s = .next t ∧ exec .ldd s = .next u ∧
    t.hl = s.hl + 1 ∧ t.de = s.de + 1 ∧ t.bc = s.bc - 1 ∧
    u.hl = s.hl - 1 ∧ u.de = s.de - 1 ∧ u.bc = s.bc - 1 ∧
    t.read8 s.de = s.read8 s.hl ∧ u.read8 s.de = s.read8 s.hl ∧
    (∀ a, a ≠ s.de → t.read8 a = s.read8 a ∧ u.read8 a = s.read8 a) ∧
    t = { s with main := { t.main with a := s.main.a, f := s.main.f }, mem := t.mem, pc := s.pc + 2 } ∧
    u = { s with main := { u.main with a := s.main.a, f := s.main.f }, mem := u.mem, pc := s.pc + 2 }

/-- LDIR and LDDR complete in every state, in one step: BC ends at 0, HL and DE have moved by the old
BC, PC is `next`, and no flag, no other register and no cell outside the destination changes
(R253 to R255). -/
def Obligations.RepeatTransfersEndInClosedForm : Prop :=
  ∀ s : State, ∃ t u,
    exec .ldir s = .next t ∧ exec .lddr s = .next u ∧
    t.bc = 0 ∧ t.hl = s.hl + s.bc ∧ t.de = s.de + s.bc ∧
    u.bc = 0 ∧ u.hl = s.hl - s.bc ∧ u.de = s.de - s.bc ∧
    (∀ a, (∀ k, k < s.bc.toNat → a ≠ s.de + BitVec.ofNat 16 k) → t.read8 a = s.read8 a) ∧
    (∀ a, (∀ k, k < s.bc.toNat → a ≠ s.de - BitVec.ofNat 16 k) → u.read8 a = s.read8 a) ∧
    t = { s with main := { t.main with a := s.main.a, f := s.main.f }, mem := t.mem, pc := s.pc + 2 } ∧
    u = { s with main := { u.main with a := s.main.a, f := s.main.f }, mem := u.mem, pc := s.pc + 2 }

/-- When the two ranges do not overlap, LDIR copies the BC bytes upward from HL to DE and LDDR those
downward, byte for byte (R253, R254). -/
def Obligations.RepeatTransfersCopyDisjointBlocks : Prop :=
  (∀ s t : State, exec .ldir s = .next t →
    (∀ i j, i < s.bc.toNat → j < s.bc.toNat →
      s.hl + BitVec.ofNat 16 i ≠ s.de + BitVec.ofNat 16 j) →
    ∀ i, i < s.bc.toNat →
      t.read8 (s.de + BitVec.ofNat 16 i) = s.read8 (s.hl + BitVec.ofNat 16 i)) ∧
  (∀ s t : State, exec .lddr s = .next t →
    (∀ i j, i < s.bc.toNat → j < s.bc.toNat →
      s.hl - BitVec.ofNat 16 i ≠ s.de - BitVec.ofNat 16 j) →
    ∀ i, i < s.bc.toNat →
      t.read8 (s.de - BitVec.ofNat 16 i) = s.read8 (s.hl - BitVec.ofNat 16 i))

/-- With overlapping ranges a later round reads what an earlier one wrote: LDIR onto the next address
fills all BC cells with the first byte, and LDDR from the top moves a block up by one without loss
(R256). -/
def Obligations.OverlappingTransfersGoByteByByte : Prop :=
  (∀ s t : State, exec .ldir s = .next t → s.de = s.hl + 1 →
    ∀ i, i < s.bc.toNat → t.read8 (s.de + BitVec.ofNat 16 i) = s.read8 s.hl) ∧
  (∀ s t : State, exec .lddr s = .next t → s.de = s.hl + 1 →
    ∀ i, i < s.bc.toNat →
      t.read8 (s.de - BitVec.ofNat 16 i) = s.read8 (s.hl - BitVec.ofNat 16 i))

/-- LDIR or LDDR entered with BC = 0 copies nothing and leaves HL, DE, BC and memory, PC going to
`next` (R257). -/
def Obligations.ZeroCountRepeatIsANoOp : Prop :=
  ∀ s : State, s.bc = 0 →
    exec .ldir s = .next { s with pc := s.pc + 2 } ∧ exec .lddr s = .next { s with pc := s.pc + 2 }

/-! ## Stack -/

/-- Push16 and Pop16, wrapping modulo 65,536: a push stores the high byte at SP-1 and the low byte at
SP-2 and touches no other cell; a pop returns the low byte at SP and the high byte at SP+1, leaves
SP two higher and erases nothing (R261, R262, R269). -/
def Obligations.StackEngineWrapsBothWays : Prop :=
  ∀ (s : State) (w : Word),
    Pushed s (s.push16 w) w ∧ s.push16 w = { s with sp := s.sp - 2, mem := (s.push16 w).mem } ∧
    s.pop16 = (topOfStack s, { s with sp := s.sp + 2 })

/-- PUSH of a pair, of AF with all eight bits of F, and of an index register complete in every state;
the pushed register and every flag stay (R263, R264, R267; AF = A : F is D20, PUSH XY is D21). -/
def Obligations.PushesStoreTheirRegister : Prop :=
  ∀ s : State,
    (∀ q, ∃ t, exec (.pushQQ q) s = .next t ∧ Pushed s t (s.stackPair q) ∧
      t = { s with sp := t.sp, mem := t.mem, pc := s.pc + 1 }) ∧
    (∃ t, exec .pushAF s = .next t ∧ Pushed s t (joinBytes s.main.a s.main.f) ∧
      t = { s with sp := t.sp, mem := t.mem, pc := s.pc + 1 }) ∧
    (∀ x, ∃ t, exec (.pushXY x) s = .next t ∧ Pushed s t (s.index x) ∧
      t = { s with sp := t.sp, mem := t.mem, pc := s.pc + 2 })

/-- POP of a pair, of AF into A and all eight bits of F, and of an index register complete in every
state; memory and every other register stay (R265, R266, R268; D20, D21). -/
def Obligations.PopsLoadTheirRegister : Prop :=
  ∀ s : State,
    (∀ q, ∃ t, exec (.popQQ q) s = .next t ∧ t.stackPair q = topOfStack s ∧
      t = { s.setStackPair q (topOfStack s) with sp := s.sp + 2, pc := s.pc + 1 }) ∧
    exec .popAF s = .next { s with
      main.f := s.read8 s.sp, main.a := s.read8 (s.sp + 1), sp := s.sp + 2, pc := s.pc + 1 } ∧
    (∀ x, ∃ t, exec (.popXY x) s = .next t ∧ t.index x = topOfStack s ∧
      t = { s.setIndex x (topOfStack s) with sp := s.sp + 2, pc := s.pc + 2 })

/-- A PUSH of a pair, of AF or of an index register followed by a POP of a pair, of AF or of an index
register transfers the value, in all nine combinations: the popped register holds it, SP is as
before both, and no other register changes; PUSH AF then POP AF restores A and every bit of F (R263
to R268; D0 scenario 4; AF = A : F is D20, PUSH and POP of IX and IY are D21). -/
def Obligations.PopUndoesPush : Prop :=
  ∀ s : State,
    (∀ q, PopsBack (.pushQQ q) s (s.stackPair q)) ∧
    PopsBack .pushAF s (joinBytes s.main.a s.main.f) ∧
    (∀ x, PopsBack (.pushXY x) s (s.index x)) ∧
    (∃ t u, exec .pushAF s = .next t ∧ exec .popAF t = .next u ∧ u.main = s.main ∧ u.sp = s.sp)

/-! ## Ports -/

/-- IN calls the device model once: its byte goes to A and nothing else of CORE but PC changes, no
flag in particular; a failure is raised as PortFailure with the device's value; a blocked call
never ends; where no answer is listed the byte is a free value (R60, R61, R270, R285; the form of
the device model's answers is the model's choice, log 4 and log 7). -/
def Obligations.PortInputReadsTheDevice : Prop :=
  ∀ (s : State) (n : Byte),
    (∀ v rest, s.portReplies = .ok v :: rest →
      exec (.inAN n) s = .next { s with
        main.a := v, pc := s.pc + 2, portReplies := rest, portCalls := s.portCalls + 1,
        portTrace := .input n v :: s.portTrace }) ∧
    (s.portReplies = [] → ∃ v, exec (.inAN n) s = .next { s with
        main.a := v, pc := s.pc + 2, portCalls := s.portCalls + 1,
        portTrace := .input n v :: s.portTrace }) ∧
    (∀ e rest, s.portReplies = .failed e :: rest → exec (.inAN n) s = .fault (.portFailure e)) ∧
    (∀ rest, s.portReplies = .blocked :: rest → exec (.inAN n) s = .fault .portBlocked)

/-- OUT calls the device model once with the port and A and changes nothing of CORE but PC; a failure
is raised as PortFailure with the device's value; a blocked call never ends (R60, R61, R271, R285;
the form of the answers is the model's choice, log 4 and log 7). -/
def Obligations.PortOutputWritesTheDevice : Prop :=
  ∀ (s : State) (n : Byte),
    (∀ v rest, s.portReplies = .ok v :: rest →
      exec (.outNA n) s = .next { s with
        pc := s.pc + 2, portReplies := rest, portCalls := s.portCalls + 1,
        portTrace := .output n s.main.a :: s.portTrace }) ∧
    (s.portReplies = [] → exec (.outNA n) s = .next { s with
        pc := s.pc + 2, portCalls := s.portCalls + 1,
        portTrace := .output n s.main.a :: s.portTrace }) ∧
    (∀ e rest, s.portReplies = .failed e :: rest → exec (.outNA n) s = .fault (.portFailure e)) ∧
    (∀ rest, s.portReplies = .blocked :: rest → exec (.outNA n) s = .fault .portBlocked)

/-- After a PortFailure the driver finds every register, RUN and memory as before the step, PC at the
IN or OUT, and the device model one answer further (R285; D18). -/
def Obligations.PortFailureLeavesTheMachine : Prop :=
  ∀ (s t : State) (e : Nat), Driver.step s = some (t, .error (.portFailure e)) →
    (∃ rest, s.portReplies = .failed e :: rest ∧ t.portReplies = rest) ∧
    t = { s with portReplies := t.portReplies, portCalls := s.portCalls + 1 }

/-! ## Memory -/

/-- The memory primitives, addresses modulo 65,536: a byte written reads back and no other cell
changes; a word is its low byte at the address and its high byte at the next one; reading a word
back gives it; an access changes no register (R51 to R54). -/
def Obligations.MemoryPrimitivesAreByteAccesses : Prop :=
  ∀ (s : State) (addr b : Word) (v : Byte) (w : Word),
    ((s.write8 addr v).read8 addr = v ∧ (b ≠ addr → (s.write8 addr v).read8 b = s.read8 b)) ∧
    (s.read16 addr = joinBytes (s.read8 (addr + 1)) (s.read8 addr) ∧
      (s.write16 addr w).read8 addr = low8 w ∧ (s.write16 addr w).read8 (addr + 1) = high8 w ∧
      (b ≠ addr → b ≠ addr + 1 → (s.write16 addr w).read8 b = s.read8 b) ∧
      (s.write16 addr w).read16 addr = w) ∧
    s.write8 addr v = { s with mem := (s.write8 addr v).mem } ∧
    s.write16 addr w = { s with mem := (s.write16 addr w).mem }

/-- The canonical form is canonical: two memories in it that read alike at all 65,536 addresses are
the same data (the form is the model's, log 3). -/
def Obligations.CanonicalMemoriesAreEqualWhenAlike : Prop :=
  ∀ m m' : Memory, m.wf = true → m'.wf = true →
    (∀ a, a < 65536 → m.readAt a = m'.readAt a) → m = m'

/-! ## The driver -/

/-- Construction and `reset()`: every register is 0 and RUN is RUNNING after either; `reset()` leaves
memory, the variant and the device model's answers as they were (R38, R310, R311; the values are
the spec's decision D19; that the model's own State.reset is the VZ80 machine is log 1). -/
def Obligations.ResetZeroesTheRegisters : Prop :=
  ∀ (s : State) (v : Variant) (replies : List PortReply) (image : List (Nat × Byte)),
    (∀ t, t = Driver.reset s ∨ t = Driver.construct v replies image → t.main = Bank.zero ∧
      t.shadow = Bank.zero ∧ t.sp = 0 ∧ t.pc = 0 ∧ t.ix = 0 ∧ t.iy = 0 ∧ t.run = .running) ∧
    (Driver.reset s).mem = s.mem ∧ (Driver.reset s).variant = s.variant ∧
    (Driver.reset s).portReplies = s.portReplies ∧
    (Driver.construct v replies image).variant = v ∧
    State.reset = Driver.construct .vz80 [] []

/-- Loading an image that names each address once puts each byte at its address modulo 65,536 and
leaves 0 in every cell it does not name; memory is in canonical form (R67; a list for a mapping is
the model's choice, log 13). -/
def Obligations.LoadedImageReadsBack : Prop :=
  ∀ (v : Variant) (replies : List PortReply) (image : List (Nat × Byte)),
    (image.map fun p => p.1 % 65536).Nodup →
    (∀ p ∈ image, (Driver.construct v replies image).read8 (BitVec.ofNat 16 p.1) = p.2) ∧
    (∀ a : Word, a.toNat ∉ image.map (fun p => p.1 % 65536) →
      (Driver.construct v replies image).read8 a = 0) ∧
    (Driver.construct v replies image).Inv

/-- The driver's two calls. `step()` returns the state after a completed step, with Halted when RUN
is HALTED in it and Running otherwise (R220); a blocked port call never returns (R285; none stands
for that, log 7). `run` is R225's loop: a budget of 0, or a HALTED machine whatever the budget, takes
no step; a RUNNING machine with budget left takes one, whose error ends the run with count 1, and
after any other outcome the run goes on with one less budget and one more counted. So it ends in
the state after as many steps as it counts, at most the budget; Halted with RUN HALTED,
BudgetExhausted with the whole budget used and RUN RUNNING, or the error of its last step; and after
BudgetExhausted a further run goes on from there (R286; the exact loop is the spec's decision D30). -/
def Obligations.RunIsRepeatedStepping : Prop :=
  (∀ s t : State, step s = .next t →
    Driver.step s = some (t, if t.run = .halted then .halted else .running)) ∧
  (∀ s : State, step s = .fault .portBlocked → Driver.step s = none) ∧
  (∀ s : State, Driver.run 0 s = some (s, if s.run = .halted then .halted else .budgetExhausted, 0)) ∧
  (∀ (k : Nat) (s : State), s.run = .halted → Driver.run k s = some (s, .halted, 0)) ∧
  (∀ (k : Nat) (s : State), s.run = .running →
    (Driver.step s = none → Driver.run (k + 1) s = none) ∧
    (∀ t e, Driver.step s = some (t, .error e) → Driver.run (k + 1) s = some (t, .error e, 1)) ∧
    (∀ t o, Driver.step s = some (t, o) → (∀ e, o ≠ .error e) →
      Driver.run (k + 1) s = (Driver.run k t).map fun (u, q, n) => (u, q, n + 1))) ∧
  (∀ (k : Nat) (s t : State) (o : Driver.RunOutcome) (n : Nat), Driver.run k s = some (t, o, n) →
    n ≤ k ∧ driverSteps n s = some t ∧ (o = .halted → t.run = .halted) ∧
    (o = .budgetExhausted → n = k ∧ t.run = .running) ∧
    (∀ e, o = .error e → 1 ≤ n ∧ ∃ u, driverSteps (n - 1) s = some u ∧
      Driver.step u = some (t, .error e))) ∧
  (∀ (k m : Nat) (s t : State) (n : Nat), Driver.run k s = some (t, .budgetExhausted, n) →
    Driver.run (k + m) s = (Driver.run m t).map fun (u, o, j) => (u, o, k + j))
end

