-- ==== Sys2Proof/Laws/Decode.lean ====
section
/-! SUPPORT. Whether bytes decode depends on their opcode bytes alone: operand bytes never decide
whether a row is found. So a question about every byte sequence is one about 256 first bytes and
768 prefixed pairs. -/

namespace Sys2Proof

/-- An unprefixed row looks at its first byte alone to decide whether it applies. -/
theorem oneByteRows_build : ∀ row ∈ oneByteRows, ∀ b0 b1 b2 b1' b2' : Byte,
    (row.build b0 b1 b2).isSome = (row.build b0 b1' b2').isSome := by
  simp only [oneByteRows, accRows, incArithRows, moveRows, controlRows, List.forall_mem_append,
    List.forall_mem_cons, List.not_mem_nil, false_implies, implies_true, and_true, Option.isSome_map,
    Option.isSome_bind, Option.isSome_some]

/-- A prefixed row looks at its first two bytes alone. -/
theorem twoByteRows_build : ∀ row ∈ twoByteRows, ∀ b0 b1 b2 b2' : Byte,
    (row.build b0 b1 b2).isSome = (row.build b0 b1 b2').isSome := by
  simp only [twoByteRows, indexedRows, blockRows, List.forall_mem_append, List.forall_mem_cons,
    List.not_mem_nil, false_implies, implies_true, and_true, Option.isSome_map, Option.isSome_some]

theorem isSome_findSome?_congr {α β γ : Type} {f : α → Option β} {g : α → Option γ} :
    ∀ {l : List α}, (∀ x ∈ l, (f x).isSome = (g x).isSome) →
      (l.findSome? f).isSome = (l.findSome? g).isSome
  | [], _ => rfl
  | x :: l, h => by
    have hx := h x (List.mem_cons_self ..)
    have hl := isSome_findSome?_congr (l := l) fun y hy => h y (List.mem_cons_of_mem _ hy)
    cases hf : f x <;> cases hg : g x <;> simp_all

/-- Without a prefix, the first byte decides. -/
theorem lookup_isSome_of_not_prefix {v : Variant} {b0 : Byte} (b1 b2 : Byte)
    (h : (v == .vz80 && isPrefixByte b0) = false) :
    (lookup v b0 b1 b2).isSome = (lookup v b0 0 0).isSome := by
  simp only [lookup, h, Bool.false_eq_true, if_false]
  refine isSome_findSome?_congr fun row hrow => ?_
  simp only [Row.decode]
  split
  · exact oneByteRows_build row hrow b0 b1 b2 0 0
  · rfl

/-- After a VZ80 prefix byte, the pair decides. -/
theorem lookup_isSome_of_prefix {v : Variant} {b0 : Byte} (b1 b2 : Byte)
    (h : (v == .vz80 && isPrefixByte b0) = true) :
    (lookup v b0 b1 b2).isSome = (lookup v b0 b1 0).isSome := by
  simp only [lookup, h, if_true]
  refine isSome_findSome?_congr fun row hrow => ?_
  simp only [Row.decode]
  split
  · exact twoByteRows_build row hrow b0 b1 b2 0
  · rfl

/-- The two reasons of a decode error, by the lookup alone. -/
theorem decode_eq_error {v : Variant} {b0 b1 b2 : Byte} {reason : DecodeReason} :
    decode v b0 b1 b2 = .error reason ↔ (lookup v b0 b1 b2).isSome = false ∧
      reason = if isMemoryToMemoryMove v b0 b1 then .illegalOperand else .illegalOpcode := by
  cases h : lookup v b0 b1 b2 with
  | some i => simp [decode, h]
  | none =>
    simp only [decode, h, Except.error.injEq, Option.isSome_none, true_and]
    exact eq_comm

end Sys2Proof
end

