-- ==== Sys2Proof/Laws/State.lean ====
section
/-! SUPPORT. One lemma for each field after each update of State, so that no proof unfolds a record
update. -/

namespace Sys2Proof.Machine

/-! ### `State.setBC` -/

@[simp] theorem setBC_main_a (s : State) (w : Word) :
    (s.setBC w).main.a = s.main.a := rfl
@[simp] theorem setBC_main_f (s : State) (w : Word) :
    (s.setBC w).main.f = s.main.f := rfl
@[simp] theorem setBC_main_b (s : State) (w : Word) :
    (s.setBC w).main.b = high8 w := rfl
@[simp] theorem setBC_main_c (s : State) (w : Word) :
    (s.setBC w).main.c = low8 w := rfl
@[simp] theorem setBC_main_d (s : State) (w : Word) :
    (s.setBC w).main.d = s.main.d := rfl
@[simp] theorem setBC_main_e (s : State) (w : Word) :
    (s.setBC w).main.e = s.main.e := rfl
@[simp] theorem setBC_main_h (s : State) (w : Word) :
    (s.setBC w).main.h = s.main.h := rfl
@[simp] theorem setBC_main_l (s : State) (w : Word) :
    (s.setBC w).main.l = s.main.l := rfl
@[simp] theorem setBC_variant (s : State) (w : Word) :
    (s.setBC w).variant = s.variant := rfl
@[simp] theorem setBC_shadow (s : State) (w : Word) :
    (s.setBC w).shadow = s.shadow := rfl
@[simp] theorem setBC_sp (s : State) (w : Word) :
    (s.setBC w).sp = s.sp := rfl
@[simp] theorem setBC_pc (s : State) (w : Word) :
    (s.setBC w).pc = s.pc := rfl
@[simp] theorem setBC_ix (s : State) (w : Word) :
    (s.setBC w).ix = s.ix := rfl
@[simp] theorem setBC_iy (s : State) (w : Word) :
    (s.setBC w).iy = s.iy := rfl
@[simp] theorem setBC_run (s : State) (w : Word) :
    (s.setBC w).run = s.run := rfl
@[simp] theorem setBC_mem (s : State) (w : Word) :
    (s.setBC w).mem = s.mem := rfl
@[simp] theorem setBC_portReplies (s : State) (w : Word) :
    (s.setBC w).portReplies = s.portReplies := rfl
@[simp] theorem setBC_portCalls (s : State) (w : Word) :
    (s.setBC w).portCalls = s.portCalls := rfl
@[simp] theorem setBC_portTrace (s : State) (w : Word) :
    (s.setBC w).portTrace = s.portTrace := rfl

/-! ### `State.setDE` -/

@[simp] theorem setDE_main_a (s : State) (w : Word) :
    (s.setDE w).main.a = s.main.a := rfl
@[simp] theorem setDE_main_f (s : State) (w : Word) :
    (s.setDE w).main.f = s.main.f := rfl
@[simp] theorem setDE_main_b (s : State) (w : Word) :
    (s.setDE w).main.b = s.main.b := rfl
@[simp] theorem setDE_main_c (s : State) (w : Word) :
    (s.setDE w).main.c = s.main.c := rfl
@[simp] theorem setDE_main_d (s : State) (w : Word) :
    (s.setDE w).main.d = high8 w := rfl
@[simp] theorem setDE_main_e (s : State) (w : Word) :
    (s.setDE w).main.e = low8 w := rfl
@[simp] theorem setDE_main_h (s : State) (w : Word) :
    (s.setDE w).main.h = s.main.h := rfl
@[simp] theorem setDE_main_l (s : State) (w : Word) :
    (s.setDE w).main.l = s.main.l := rfl
@[simp] theorem setDE_variant (s : State) (w : Word) :
    (s.setDE w).variant = s.variant := rfl
@[simp] theorem setDE_shadow (s : State) (w : Word) :
    (s.setDE w).shadow = s.shadow := rfl
@[simp] theorem setDE_sp (s : State) (w : Word) :
    (s.setDE w).sp = s.sp := rfl
@[simp] theorem setDE_pc (s : State) (w : Word) :
    (s.setDE w).pc = s.pc := rfl
@[simp] theorem setDE_ix (s : State) (w : Word) :
    (s.setDE w).ix = s.ix := rfl
@[simp] theorem setDE_iy (s : State) (w : Word) :
    (s.setDE w).iy = s.iy := rfl
@[simp] theorem setDE_run (s : State) (w : Word) :
    (s.setDE w).run = s.run := rfl
@[simp] theorem setDE_mem (s : State) (w : Word) :
    (s.setDE w).mem = s.mem := rfl
@[simp] theorem setDE_portReplies (s : State) (w : Word) :
    (s.setDE w).portReplies = s.portReplies := rfl
@[simp] theorem setDE_portCalls (s : State) (w : Word) :
    (s.setDE w).portCalls = s.portCalls := rfl
@[simp] theorem setDE_portTrace (s : State) (w : Word) :
    (s.setDE w).portTrace = s.portTrace := rfl

/-! ### `State.setHL` -/

@[simp] theorem setHL_main_a (s : State) (w : Word) :
    (s.setHL w).main.a = s.main.a := rfl
@[simp] theorem setHL_main_f (s : State) (w : Word) :
    (s.setHL w).main.f = s.main.f := rfl
@[simp] theorem setHL_main_b (s : State) (w : Word) :
    (s.setHL w).main.b = s.main.b := rfl
@[simp] theorem setHL_main_c (s : State) (w : Word) :
    (s.setHL w).main.c = s.main.c := rfl
@[simp] theorem setHL_main_d (s : State) (w : Word) :
    (s.setHL w).main.d = s.main.d := rfl
@[simp] theorem setHL_main_e (s : State) (w : Word) :
    (s.setHL w).main.e = s.main.e := rfl
@[simp] theorem setHL_main_h (s : State) (w : Word) :
    (s.setHL w).main.h = high8 w := rfl
@[simp] theorem setHL_main_l (s : State) (w : Word) :
    (s.setHL w).main.l = low8 w := rfl
@[simp] theorem setHL_variant (s : State) (w : Word) :
    (s.setHL w).variant = s.variant := rfl
@[simp] theorem setHL_shadow (s : State) (w : Word) :
    (s.setHL w).shadow = s.shadow := rfl
@[simp] theorem setHL_sp (s : State) (w : Word) :
    (s.setHL w).sp = s.sp := rfl
@[simp] theorem setHL_pc (s : State) (w : Word) :
    (s.setHL w).pc = s.pc := rfl
@[simp] theorem setHL_ix (s : State) (w : Word) :
    (s.setHL w).ix = s.ix := rfl
@[simp] theorem setHL_iy (s : State) (w : Word) :
    (s.setHL w).iy = s.iy := rfl
@[simp] theorem setHL_run (s : State) (w : Word) :
    (s.setHL w).run = s.run := rfl
@[simp] theorem setHL_mem (s : State) (w : Word) :
    (s.setHL w).mem = s.mem := rfl
@[simp] theorem setHL_portReplies (s : State) (w : Word) :
    (s.setHL w).portReplies = s.portReplies := rfl
@[simp] theorem setHL_portCalls (s : State) (w : Word) :
    (s.setHL w).portCalls = s.portCalls := rfl
@[simp] theorem setHL_portTrace (s : State) (w : Word) :
    (s.setHL w).portTrace = s.portTrace := rfl

/-! ### `State.setAF` -/

@[simp] theorem setAF_main_a (s : State) (w : Word) :
    (s.setAF w).main.a = high8 w := rfl
@[simp] theorem setAF_main_f (s : State) (w : Word) :
    (s.setAF w).main.f = low8 w := rfl
@[simp] theorem setAF_main_b (s : State) (w : Word) :
    (s.setAF w).main.b = s.main.b := rfl
@[simp] theorem setAF_main_c (s : State) (w : Word) :
    (s.setAF w).main.c = s.main.c := rfl
@[simp] theorem setAF_main_d (s : State) (w : Word) :
    (s.setAF w).main.d = s.main.d := rfl
@[simp] theorem setAF_main_e (s : State) (w : Word) :
    (s.setAF w).main.e = s.main.e := rfl
@[simp] theorem setAF_main_h (s : State) (w : Word) :
    (s.setAF w).main.h = s.main.h := rfl
@[simp] theorem setAF_main_l (s : State) (w : Word) :
    (s.setAF w).main.l = s.main.l := rfl
@[simp] theorem setAF_variant (s : State) (w : Word) :
    (s.setAF w).variant = s.variant := rfl
@[simp] theorem setAF_shadow (s : State) (w : Word) :
    (s.setAF w).shadow = s.shadow := rfl
@[simp] theorem setAF_sp (s : State) (w : Word) :
    (s.setAF w).sp = s.sp := rfl
@[simp] theorem setAF_pc (s : State) (w : Word) :
    (s.setAF w).pc = s.pc := rfl
@[simp] theorem setAF_ix (s : State) (w : Word) :
    (s.setAF w).ix = s.ix := rfl
@[simp] theorem setAF_iy (s : State) (w : Word) :
    (s.setAF w).iy = s.iy := rfl
@[simp] theorem setAF_run (s : State) (w : Word) :
    (s.setAF w).run = s.run := rfl
@[simp] theorem setAF_mem (s : State) (w : Word) :
    (s.setAF w).mem = s.mem := rfl
@[simp] theorem setAF_portReplies (s : State) (w : Word) :
    (s.setAF w).portReplies = s.portReplies := rfl
@[simp] theorem setAF_portCalls (s : State) (w : Word) :
    (s.setAF w).portCalls = s.portCalls := rfl
@[simp] theorem setAF_portTrace (s : State) (w : Word) :
    (s.setAF w).portTrace = s.portTrace := rfl

/-! ### `State.setFlags` -/

@[simp] theorem setFlags_main_a (s : State) (fs : FlagSet) :
    (s.setFlags fs).main.a = s.main.a := rfl
@[simp] theorem setFlags_main_f (s : State) (fs : FlagSet) :
    (s.setFlags fs).main.f = writeFlags s.variant fs s.main.f := rfl
@[simp] theorem setFlags_main_b (s : State) (fs : FlagSet) :
    (s.setFlags fs).main.b = s.main.b := rfl
@[simp] theorem setFlags_main_c (s : State) (fs : FlagSet) :
    (s.setFlags fs).main.c = s.main.c := rfl
@[simp] theorem setFlags_main_d (s : State) (fs : FlagSet) :
    (s.setFlags fs).main.d = s.main.d := rfl
@[simp] theorem setFlags_main_e (s : State) (fs : FlagSet) :
    (s.setFlags fs).main.e = s.main.e := rfl
@[simp] theorem setFlags_main_h (s : State) (fs : FlagSet) :
    (s.setFlags fs).main.h = s.main.h := rfl
@[simp] theorem setFlags_main_l (s : State) (fs : FlagSet) :
    (s.setFlags fs).main.l = s.main.l := rfl
@[simp] theorem setFlags_variant (s : State) (fs : FlagSet) :
    (s.setFlags fs).variant = s.variant := rfl
@[simp] theorem setFlags_shadow (s : State) (fs : FlagSet) :
    (s.setFlags fs).shadow = s.shadow := rfl
@[simp] theorem setFlags_sp (s : State) (fs : FlagSet) :
    (s.setFlags fs).sp = s.sp := rfl
@[simp] theorem setFlags_pc (s : State) (fs : FlagSet) :
    (s.setFlags fs).pc = s.pc := rfl
@[simp] theorem setFlags_ix (s : State) (fs : FlagSet) :
    (s.setFlags fs).ix = s.ix := rfl
@[simp] theorem setFlags_iy (s : State) (fs : FlagSet) :
    (s.setFlags fs).iy = s.iy := rfl
@[simp] theorem setFlags_run (s : State) (fs : FlagSet) :
    (s.setFlags fs).run = s.run := rfl
@[simp] theorem setFlags_mem (s : State) (fs : FlagSet) :
    (s.setFlags fs).mem = s.mem := rfl
@[simp] theorem setFlags_portReplies (s : State) (fs : FlagSet) :
    (s.setFlags fs).portReplies = s.portReplies := rfl
@[simp] theorem setFlags_portCalls (s : State) (fs : FlagSet) :
    (s.setFlags fs).portCalls = s.portCalls := rfl
@[simp] theorem setFlags_portTrace (s : State) (fs : FlagSet) :
    (s.setFlags fs).portTrace = s.portTrace := rfl

/-! ### `State.jump` -/

@[simp] theorem jump_main (s : State) (t : Word) :
    (s.jump t).main = s.main := rfl
@[simp] theorem jump_variant (s : State) (t : Word) :
    (s.jump t).variant = s.variant := rfl
@[simp] theorem jump_shadow (s : State) (t : Word) :
    (s.jump t).shadow = s.shadow := rfl
@[simp] theorem jump_sp (s : State) (t : Word) :
    (s.jump t).sp = s.sp := rfl
@[simp] theorem jump_pc (s : State) (t : Word) :
    (s.jump t).pc = t := rfl
@[simp] theorem jump_ix (s : State) (t : Word) :
    (s.jump t).ix = s.ix := rfl
@[simp] theorem jump_iy (s : State) (t : Word) :
    (s.jump t).iy = s.iy := rfl
@[simp] theorem jump_run (s : State) (t : Word) :
    (s.jump t).run = s.run := rfl
@[simp] theorem jump_mem (s : State) (t : Word) :
    (s.jump t).mem = s.mem := rfl
@[simp] theorem jump_portReplies (s : State) (t : Word) :
    (s.jump t).portReplies = s.portReplies := rfl
@[simp] theorem jump_portCalls (s : State) (t : Word) :
    (s.jump t).portCalls = s.portCalls := rfl
@[simp] theorem jump_portTrace (s : State) (t : Word) :
    (s.jump t).portTrace = s.portTrace := rfl

/-! ### `State.advance` -/

@[simp] theorem advance_main (s : State) (n : Nat) :
    (s.advance n).main = s.main := rfl
@[simp] theorem advance_variant (s : State) (n : Nat) :
    (s.advance n).variant = s.variant := rfl
@[simp] theorem advance_shadow (s : State) (n : Nat) :
    (s.advance n).shadow = s.shadow := rfl
@[simp] theorem advance_sp (s : State) (n : Nat) :
    (s.advance n).sp = s.sp := rfl
@[simp] theorem advance_pc (s : State) (n : Nat) :
    (s.advance n).pc = s.pc + BitVec.ofNat 16 n := rfl
@[simp] theorem advance_ix (s : State) (n : Nat) :
    (s.advance n).ix = s.ix := rfl
@[simp] theorem advance_iy (s : State) (n : Nat) :
    (s.advance n).iy = s.iy := rfl
@[simp] theorem advance_run (s : State) (n : Nat) :
    (s.advance n).run = s.run := rfl
@[simp] theorem advance_mem (s : State) (n : Nat) :
    (s.advance n).mem = s.mem := rfl
@[simp] theorem advance_portReplies (s : State) (n : Nat) :
    (s.advance n).portReplies = s.portReplies := rfl
@[simp] theorem advance_portCalls (s : State) (n : Nat) :
    (s.advance n).portCalls = s.portCalls := rfl
@[simp] theorem advance_portTrace (s : State) (n : Nat) :
    (s.advance n).portTrace = s.portTrace := rfl

/-! ### `State.write8` -/

@[simp] theorem write8_main (s : State) (a : Word) (v : Byte) :
    (s.write8 a v).main = s.main := rfl
@[simp] theorem write8_variant (s : State) (a : Word) (v : Byte) :
    (s.write8 a v).variant = s.variant := rfl
@[simp] theorem write8_shadow (s : State) (a : Word) (v : Byte) :
    (s.write8 a v).shadow = s.shadow := rfl
@[simp] theorem write8_sp (s : State) (a : Word) (v : Byte) :
    (s.write8 a v).sp = s.sp := rfl
@[simp] theorem write8_pc (s : State) (a : Word) (v : Byte) :
    (s.write8 a v).pc = s.pc := rfl
@[simp] theorem write8_ix (s : State) (a : Word) (v : Byte) :
    (s.write8 a v).ix = s.ix := rfl
@[simp] theorem write8_iy (s : State) (a : Word) (v : Byte) :
    (s.write8 a v).iy = s.iy := rfl
@[simp] theorem write8_run (s : State) (a : Word) (v : Byte) :
    (s.write8 a v).run = s.run := rfl
@[simp] theorem write8_mem (s : State) (a : Word) (v : Byte) :
    (s.write8 a v).mem = s.mem.writeAt a.toNat v := rfl
@[simp] theorem write8_portReplies (s : State) (a : Word) (v : Byte) :
    (s.write8 a v).portReplies = s.portReplies := rfl
@[simp] theorem write8_portCalls (s : State) (a : Word) (v : Byte) :
    (s.write8 a v).portCalls = s.portCalls := rfl
@[simp] theorem write8_portTrace (s : State) (a : Word) (v : Byte) :
    (s.write8 a v).portTrace = s.portTrace := rfl

/-! ### `State.exchangeShadow` -/

@[simp] theorem exchangeShadow_main (s : State) :
    s.exchangeShadow.main = s.shadow := rfl
@[simp] theorem exchangeShadow_variant (s : State) :
    s.exchangeShadow.variant = s.variant := rfl
@[simp] theorem exchangeShadow_shadow (s : State) :
    s.exchangeShadow.shadow = s.main := rfl
@[simp] theorem exchangeShadow_sp (s : State) :
    s.exchangeShadow.sp = s.sp := rfl
@[simp] theorem exchangeShadow_pc (s : State) :
    s.exchangeShadow.pc = s.pc := rfl
@[simp] theorem exchangeShadow_ix (s : State) :
    s.exchangeShadow.ix = s.ix := rfl
@[simp] theorem exchangeShadow_iy (s : State) :
    s.exchangeShadow.iy = s.iy := rfl
@[simp] theorem exchangeShadow_run (s : State) :
    s.exchangeShadow.run = s.run := rfl
@[simp] theorem exchangeShadow_mem (s : State) :
    s.exchangeShadow.mem = s.mem := rfl
@[simp] theorem exchangeShadow_portReplies (s : State) :
    s.exchangeShadow.portReplies = s.portReplies := rfl
@[simp] theorem exchangeShadow_portCalls (s : State) :
    s.exchangeShadow.portCalls = s.portCalls := rfl
@[simp] theorem exchangeShadow_portTrace (s : State) :
    s.exchangeShadow.portTrace = s.portTrace := rfl

/-! ### `State.portAnswered` -/

@[simp] theorem portAnswered_main (s : State) :
    s.portAnswered.main = s.main := rfl
@[simp] theorem portAnswered_variant (s : State) :
    s.portAnswered.variant = s.variant := rfl
@[simp] theorem portAnswered_shadow (s : State) :
    s.portAnswered.shadow = s.shadow := rfl
@[simp] theorem portAnswered_sp (s : State) :
    s.portAnswered.sp = s.sp := rfl
@[simp] theorem portAnswered_pc (s : State) :
    s.portAnswered.pc = s.pc := rfl
@[simp] theorem portAnswered_ix (s : State) :
    s.portAnswered.ix = s.ix := rfl
@[simp] theorem portAnswered_iy (s : State) :
    s.portAnswered.iy = s.iy := rfl
@[simp] theorem portAnswered_run (s : State) :
    s.portAnswered.run = s.run := rfl
@[simp] theorem portAnswered_mem (s : State) :
    s.portAnswered.mem = s.mem := rfl
@[simp] theorem portAnswered_portReplies (s : State) :
    s.portAnswered.portReplies = s.portReplies.tail := rfl
@[simp] theorem portAnswered_portCalls (s : State) :
    s.portAnswered.portCalls = s.portCalls + 1 := rfl
@[simp] theorem portAnswered_portTrace (s : State) :
    s.portAnswered.portTrace = s.portTrace := rfl

/-! ### `State.portCompleted` -/

@[simp] theorem portCompleted_main (s : State) (e : PortEvent) :
    (s.portCompleted e).main = s.main := rfl
@[simp] theorem portCompleted_variant (s : State) (e : PortEvent) :
    (s.portCompleted e).variant = s.variant := rfl
@[simp] theorem portCompleted_shadow (s : State) (e : PortEvent) :
    (s.portCompleted e).shadow = s.shadow := rfl
@[simp] theorem portCompleted_sp (s : State) (e : PortEvent) :
    (s.portCompleted e).sp = s.sp := rfl
@[simp] theorem portCompleted_pc (s : State) (e : PortEvent) :
    (s.portCompleted e).pc = s.pc := rfl
@[simp] theorem portCompleted_ix (s : State) (e : PortEvent) :
    (s.portCompleted e).ix = s.ix := rfl
@[simp] theorem portCompleted_iy (s : State) (e : PortEvent) :
    (s.portCompleted e).iy = s.iy := rfl
@[simp] theorem portCompleted_run (s : State) (e : PortEvent) :
    (s.portCompleted e).run = s.run := rfl
@[simp] theorem portCompleted_mem (s : State) (e : PortEvent) :
    (s.portCompleted e).mem = s.mem := rfl
@[simp] theorem portCompleted_portReplies (s : State) (e : PortEvent) :
    (s.portCompleted e).portReplies = s.portReplies.tail := rfl
@[simp] theorem portCompleted_portCalls (s : State) (e : PortEvent) :
    (s.portCompleted e).portCalls = s.portCalls + 1 := rfl
@[simp] theorem portCompleted_portTrace (s : State) (e : PortEvent) :
    (s.portCompleted e).portTrace = e :: s.portTrace := rfl

/-! ### `State.setReg8` -/

@[simp] theorem setReg8_variant (s : State) (r : Reg8) (v : Byte) :
    (s.setReg8 r v).variant = s.variant := by cases r <;> rfl
@[simp] theorem setReg8_shadow (s : State) (r : Reg8) (v : Byte) :
    (s.setReg8 r v).shadow = s.shadow := by cases r <;> rfl
@[simp] theorem setReg8_sp (s : State) (r : Reg8) (v : Byte) :
    (s.setReg8 r v).sp = s.sp := by cases r <;> rfl
@[simp] theorem setReg8_pc (s : State) (r : Reg8) (v : Byte) :
    (s.setReg8 r v).pc = s.pc := by cases r <;> rfl
@[simp] theorem setReg8_ix (s : State) (r : Reg8) (v : Byte) :
    (s.setReg8 r v).ix = s.ix := by cases r <;> rfl
@[simp] theorem setReg8_iy (s : State) (r : Reg8) (v : Byte) :
    (s.setReg8 r v).iy = s.iy := by cases r <;> rfl
@[simp] theorem setReg8_run (s : State) (r : Reg8) (v : Byte) :
    (s.setReg8 r v).run = s.run := by cases r <;> rfl
@[simp] theorem setReg8_mem (s : State) (r : Reg8) (v : Byte) :
    (s.setReg8 r v).mem = s.mem := by cases r <;> rfl
@[simp] theorem setReg8_portReplies (s : State) (r : Reg8) (v : Byte) :
    (s.setReg8 r v).portReplies = s.portReplies := by cases r <;> rfl
@[simp] theorem setReg8_portCalls (s : State) (r : Reg8) (v : Byte) :
    (s.setReg8 r v).portCalls = s.portCalls := by cases r <;> rfl
@[simp] theorem setReg8_portTrace (s : State) (r : Reg8) (v : Byte) :
    (s.setReg8 r v).portTrace = s.portTrace := by cases r <;> rfl
@[simp] theorem setReg8_main_f (s : State) (r : Reg8) (v : Byte) :
    (s.setReg8 r v).main.f = s.main.f := by cases r <;> rfl

/-! ### `State.setPair` -/

@[simp] theorem setPair_variant (s : State) (p : Pair) (w : Word) :
    (s.setPair p w).variant = s.variant := by cases p <;> rfl
@[simp] theorem setPair_shadow (s : State) (p : Pair) (w : Word) :
    (s.setPair p w).shadow = s.shadow := by cases p <;> rfl
@[simp] theorem setPair_pc (s : State) (p : Pair) (w : Word) :
    (s.setPair p w).pc = s.pc := by cases p <;> rfl
@[simp] theorem setPair_ix (s : State) (p : Pair) (w : Word) :
    (s.setPair p w).ix = s.ix := by cases p <;> rfl
@[simp] theorem setPair_iy (s : State) (p : Pair) (w : Word) :
    (s.setPair p w).iy = s.iy := by cases p <;> rfl
@[simp] theorem setPair_run (s : State) (p : Pair) (w : Word) :
    (s.setPair p w).run = s.run := by cases p <;> rfl
@[simp] theorem setPair_mem (s : State) (p : Pair) (w : Word) :
    (s.setPair p w).mem = s.mem := by cases p <;> rfl
@[simp] theorem setPair_portReplies (s : State) (p : Pair) (w : Word) :
    (s.setPair p w).portReplies = s.portReplies := by cases p <;> rfl
@[simp] theorem setPair_portCalls (s : State) (p : Pair) (w : Word) :
    (s.setPair p w).portCalls = s.portCalls := by cases p <;> rfl
@[simp] theorem setPair_portTrace (s : State) (p : Pair) (w : Word) :
    (s.setPair p w).portTrace = s.portTrace := by cases p <;> rfl
@[simp] theorem setPair_main_a (s : State) (p : Pair) (w : Word) :
    (s.setPair p w).main.a = s.main.a := by cases p <;> rfl
@[simp] theorem setPair_main_f (s : State) (p : Pair) (w : Word) :
    (s.setPair p w).main.f = s.main.f := by cases p <;> rfl

/-! ### `State.setStackPair` -/

@[simp] theorem setStackPair_variant (s : State) (q : StackPair) (w : Word) :
    (s.setStackPair q w).variant = s.variant := by cases q <;> rfl
@[simp] theorem setStackPair_shadow (s : State) (q : StackPair) (w : Word) :
    (s.setStackPair q w).shadow = s.shadow := by cases q <;> rfl
@[simp] theorem setStackPair_sp (s : State) (q : StackPair) (w : Word) :
    (s.setStackPair q w).sp = s.sp := by cases q <;> rfl
@[simp] theorem setStackPair_pc (s : State) (q : StackPair) (w : Word) :
    (s.setStackPair q w).pc = s.pc := by cases q <;> rfl
@[simp] theorem setStackPair_ix (s : State) (q : StackPair) (w : Word) :
    (s.setStackPair q w).ix = s.ix := by cases q <;> rfl
@[simp] theorem setStackPair_iy (s : State) (q : StackPair) (w : Word) :
    (s.setStackPair q w).iy = s.iy := by cases q <;> rfl
@[simp] theorem setStackPair_run (s : State) (q : StackPair) (w : Word) :
    (s.setStackPair q w).run = s.run := by cases q <;> rfl
@[simp] theorem setStackPair_mem (s : State) (q : StackPair) (w : Word) :
    (s.setStackPair q w).mem = s.mem := by cases q <;> rfl
@[simp] theorem setStackPair_portReplies (s : State) (q : StackPair) (w : Word) :
    (s.setStackPair q w).portReplies = s.portReplies := by cases q <;> rfl
@[simp] theorem setStackPair_portCalls (s : State) (q : StackPair) (w : Word) :
    (s.setStackPair q w).portCalls = s.portCalls := by cases q <;> rfl
@[simp] theorem setStackPair_portTrace (s : State) (q : StackPair) (w : Word) :
    (s.setStackPair q w).portTrace = s.portTrace := by cases q <;> rfl
@[simp] theorem setStackPair_main_a (s : State) (q : StackPair) (w : Word) :
    (s.setStackPair q w).main.a = s.main.a := by cases q <;> rfl
@[simp] theorem setStackPair_main_f (s : State) (q : StackPair) (w : Word) :
    (s.setStackPair q w).main.f = s.main.f := by cases q <;> rfl

/-! ### `State.setIndex` -/

@[simp] theorem setIndex_variant (s : State) (x : IndexReg) (w : Word) :
    (s.setIndex x w).variant = s.variant := by cases x <;> rfl
@[simp] theorem setIndex_shadow (s : State) (x : IndexReg) (w : Word) :
    (s.setIndex x w).shadow = s.shadow := by cases x <;> rfl
@[simp] theorem setIndex_sp (s : State) (x : IndexReg) (w : Word) :
    (s.setIndex x w).sp = s.sp := by cases x <;> rfl
@[simp] theorem setIndex_pc (s : State) (x : IndexReg) (w : Word) :
    (s.setIndex x w).pc = s.pc := by cases x <;> rfl
@[simp] theorem setIndex_run (s : State) (x : IndexReg) (w : Word) :
    (s.setIndex x w).run = s.run := by cases x <;> rfl
@[simp] theorem setIndex_mem (s : State) (x : IndexReg) (w : Word) :
    (s.setIndex x w).mem = s.mem := by cases x <;> rfl
@[simp] theorem setIndex_portReplies (s : State) (x : IndexReg) (w : Word) :
    (s.setIndex x w).portReplies = s.portReplies := by cases x <;> rfl
@[simp] theorem setIndex_portCalls (s : State) (x : IndexReg) (w : Word) :
    (s.setIndex x w).portCalls = s.portCalls := by cases x <;> rfl
@[simp] theorem setIndex_portTrace (s : State) (x : IndexReg) (w : Word) :
    (s.setIndex x w).portTrace = s.portTrace := by cases x <;> rfl
@[simp] theorem setIndex_main (s : State) (x : IndexReg) (w : Word) :
    (s.setIndex x w).main = s.main := by cases x <;> rfl

/-! ### Register files -/

@[simp] theorem reg8_setReg8_self (s : State) (r : Reg8) (v : Byte) : (s.setReg8 r v).reg8 r = v := by
  cases r <;> rfl

theorem reg8_setReg8_of_ne (s : State) {q r : Reg8} (v : Byte) (h : q ≠ r) :
    (s.setReg8 r v).reg8 q = s.reg8 q := by
  cases r <;> cases q <;> first | rfl | exact absurd rfl h

@[simp] theorem index_setIndex_self (s : State) (x : IndexReg) (w : Word) :
    (s.setIndex x w).index x = w := by
  cases x <;> rfl

theorem index_setIndex_of_ne (s : State) {x y : IndexReg} (w : Word) (h : y ≠ x) :
    (s.setIndex x w).index y = s.index y := by
  cases x <;> cases y <;> first | rfl | exact absurd rfl h

/-! ### Pairs and their halves -/

theorem toNat_joinBytes (hi lo : Byte) : (joinBytes hi lo).toNat = 256 * hi.toNat + lo.toNat := by
  have h := lo.isLt
  have e : (joinBytes hi lo).toNat = hi.toNat <<< 8 ||| lo.toNat := BitVec.toNat_append hi lo
  rw [e, ← Nat.shiftLeft_add_eq_or_of_lt h, Nat.shiftLeft_eq]
  omega

theorem toNat_high8 (w : Word) : (high8 w).toNat = w.toNat / 256 := by
  have h := w.isLt
  simp only [high8, BitVec.extractLsb'_toNat, Nat.shiftRight_eq_div_pow]
  omega

theorem toNat_low8 (w : Word) : (low8 w).toNat = w.toNat % 256 := by
  simp [low8, BitVec.extractLsb'_toNat]

@[simp] theorem high8_joinBytes (hi lo : Byte) : high8 (joinBytes hi lo) = hi := by
  apply BitVec.eq_of_toNat_eq
  rw [toNat_high8, toNat_joinBytes]
  have := lo.isLt
  omega

@[simp] theorem low8_joinBytes (hi lo : Byte) : low8 (joinBytes hi lo) = lo := by
  apply BitVec.eq_of_toNat_eq
  rw [toNat_low8, toNat_joinBytes]
  have := lo.isLt
  omega

@[simp] theorem joinBytes_high8_low8 (w : Word) : joinBytes (high8 w) (low8 w) = w := by
  apply BitVec.eq_of_toNat_eq
  rw [toNat_joinBytes, toNat_high8, toNat_low8]
  omega

@[simp] theorem bc_setBC (s : State) (w : Word) : (s.setBC w).bc = w := joinBytes_high8_low8 w
@[simp] theorem de_setDE (s : State) (w : Word) : (s.setDE w).de = w := joinBytes_high8_low8 w
@[simp] theorem hl_setHL (s : State) (w : Word) : (s.setHL w).hl = w := joinBytes_high8_low8 w
@[simp] theorem af_setAF (s : State) (w : Word) : (s.setAF w).af = w := joinBytes_high8_low8 w
@[simp] theorem bc_setDE (s : State) (w : Word) : (s.setDE w).bc = s.bc := rfl
@[simp] theorem bc_setHL (s : State) (w : Word) : (s.setHL w).bc = s.bc := rfl
@[simp] theorem de_setBC (s : State) (w : Word) : (s.setBC w).de = s.de := rfl
@[simp] theorem de_setHL (s : State) (w : Word) : (s.setHL w).de = s.de := rfl
@[simp] theorem hl_setBC (s : State) (w : Word) : (s.setBC w).hl = s.hl := rfl
@[simp] theorem hl_setDE (s : State) (w : Word) : (s.setDE w).hl = s.hl := rfl
@[simp] theorem bc_write8 (s : State) (a : Word) (v : Byte) : (s.write8 a v).bc = s.bc := rfl
@[simp] theorem de_write8 (s : State) (a : Word) (v : Byte) : (s.write8 a v).de = s.de := rfl
@[simp] theorem hl_write8 (s : State) (a : Word) (v : Byte) : (s.write8 a v).hl = s.hl := rfl

@[simp] theorem pair_setPair_self (s : State) (p : Pair) (w : Word) : (s.setPair p w).pair p = w := by
  cases p <;> simp [State.setPair, State.pair]

theorem pair_setPair_of_ne (s : State) {p q : Pair} (w : Word) (h : q ≠ p) :
    (s.setPair p w).pair q = s.pair q := by
  cases p <;> cases q <;> first | rfl | exact absurd rfl h

@[simp] theorem stackPair_setStackPair_self (s : State) (q : StackPair) (w : Word) :
    (s.setStackPair q w).stackPair q = w := by
  cases q <;> simp [State.setStackPair, State.stackPair]

end Sys2Proof.Machine
end

