-- ==== Sys2Proof/Laws/Flags.lean ====
section
/-! SUPPORT. What the Flag/ALU unit computes, said once in plain arithmetic: the bits of F after a
write of flags, parity and overflow, and one group of lemmas for each ALU function. -/

namespace Sys2Proof.Machine

/-! ### F after a write of flags -/

/-- Two places of flags in F are the same only for the same flag. -/
theorem flagPos_injective (v : Variant) {fl fl' : Flag} (h : flagPos v fl = flagPos v fl') :
    fl = fl' := by
  cases v <;> cases fl <;> cases fl' <;> first | rfl | exact absurd h (by decide)

theorem flagPos_lt (v : Variant) (fl : Flag) : flagPos v fl < 8 := by
  cases v <;> cases fl <;> decide

/-- The places of F no flag has. -/
theorem flagPos_ne_unnamed (v : Variant) (fl : Flag) {k : Nat} (hk : k ∈ [1, 3, 5]) :
    flagPos v fl ≠ k := by
  simp only [List.mem_cons, List.not_mem_nil, or_false] at hk
  rcases hk with rfl | rfl | rfl <;> cases v <;> cases fl <;> decide

theorem getLsbD_setBit (f : Byte) {i : Nat} (j : Nat) (b : Bool) (hi : i < 8) :
    (setBit f i b).getLsbD j = if j = i then b else f.getLsbD j := by
  by_cases hj : j < 8
  · have bit : ∀ i j : Fin 8, (1#8 <<< i.val).getLsbD j.val = decide (j = i) := by decide
    have := bit ⟨i, hi⟩ ⟨j, hj⟩
    simp only [Fin.mk.injEq] at this
    cases b <;>
      simp only [setBit, this, hj, if_true, if_false, Bool.false_eq_true, BitVec.getLsbD_or,
        BitVec.getLsbD_and, BitVec.getLsbD_not, decide_true, Bool.true_and] <;>
      by_cases h : j = i <;> simp [h]
  · have hne : j ≠ i := by omega
    have hj' : 8 ≤ j := by omega
    rw [if_neg hne, BitVec.getLsbD_of_ge _ _ hj', BitVec.getLsbD_of_ge _ _ hj']

/-- A bit of F after one flag is written. -/
theorem getLsbD_writeFlag (v : Variant) (fl : Flag) (o : Option Bool) (f : Byte) (j : Nat) :
    (writeFlag v fl o f).getLsbD j = if j = flagPos v fl then o.getD (f.getLsbD j) else f.getLsbD j := by
  cases o with
  | none => simp [writeFlag]
  | some b => simp [writeFlag, getLsbD_setBit f j b (flagPos_lt v fl)]

/-- A flag after a write of flags: the given value, or the old one where none is given (R114). -/
@[simp] theorem getFlag_writeFlags (v : Variant) (fs : FlagSet) (f : Byte) (fl : Flag) :
    getFlag v (writeFlags v fs f) fl = (fs.get fl).getD (getFlag v f fl) := by
  have ne : ∀ {a b : Flag}, a ≠ b → flagPos v a ≠ flagPos v b := fun h e => h (flagPos_injective v e)
  cases fl <;>
    simp [getFlag, writeFlags, getLsbD_writeFlag, FlagSet.get, ne]

/-- The bits of F that name no flag stay (R31, R114). -/
theorem writeFlags_unnamed (v : Variant) (fs : FlagSet) (f : Byte) {k : Nat} (hk : k ∈ [1, 3, 5]) :
    (writeFlags v fs f).getLsbD k = f.getLsbD k := by
  have ne : ∀ fl, k ≠ flagPos v fl := fun fl => (flagPos_ne_unnamed v fl hk).symm
  simp [writeFlags, getLsbD_writeFlag, ne]

@[simp] theorem flag_setFlags (s : State) (fs : FlagSet) (fl : Flag) :
    (s.setFlags fs).flag fl = (fs.get fl).getD (s.flag fl) :=
  getFlag_writeFlags _ _ _ _

/-- `accumulate` changes A and F, nothing else. -/
theorem accumulate_eq (s : State) (r : Byte × FlagSet) :
    s.accumulate r = { s with main.a := r.1, main.f := writeFlags s.variant r.2 s.main.f } := rfl

/-- `setFlags` changes F, nothing else. -/
theorem setFlags_eq (s : State) (fs : FlagSet) :
    s.setFlags fs = { s with main.f := writeFlags s.variant fs s.main.f } := rfl

/-! ### Parity and overflow -/

theorem parity8_iff (v : Byte) : parity8 v = true ↔ EvenParity v := by
  have h : ∀ v : Byte, (parity8 v = true ↔ EvenParity v) := by
    simp only [EvenParity]
    decide +kernel
  exact h v

/-- The flag bit 7 of a byte is its sign. -/
theorem getLsbD_seven (a : Byte) : a.getLsbD 7 = decide (128 ≤ a.toNat) := by
  have h : ∀ a : Byte, a.getLsbD 7 = decide (128 ≤ a.toNat) := by decide +kernel
  exact h a

theorem toInt_eq (a : Byte) : a.toInt = if a.toNat < 128 then (a.toNat : Int) else a.toNat - 256 := by
  rw [BitVec.toInt_eq_toNat_cond]
  split <;> split <;> omega

/-! ### `add8`, `sub8` -/

theorem toNat_add8 (v : Variant) (a b : Byte) (cin : Bool) :
    (add8 v a b cin).1.toNat = (a.toNat + b.toNat + cin.toNat) % 256 := rfl

theorem add8_c (v : Variant) (a b : Byte) (cin : Bool) :
    (add8 v a b cin).2.c = some (decide (256 ≤ a.toNat + b.toNat + cin.toNat)) := rfl

theorem add8_h (v : Variant) (a b : Byte) (cin : Bool) :
    (add8 v a b cin).2.h = some (decide (16 ≤ a.toNat % 16 + b.toNat % 16 + cin.toNat)) := rfl

theorem add8_z (v : Variant) (a b : Byte) (cin : Bool) :
    (add8 v a b cin).2.z = some ((add8 v a b cin).1 == 0) := rfl

theorem add8_s (v : Variant) (a b : Byte) (cin : Bool) :
    (add8 v a b cin).2.s = some ((add8 v a b cin).1.getLsbD 7) := rfl

theorem add8_p (v : Variant) (a b : Byte) (cin : Bool) :
    (add8 v a b cin).2.p =
      some (parityOverflow v (overflowAdd a b (add8 v a b cin).1) (add8 v a b cin).1) := rfl

/-- The overflow flag of an addition says that the exact signed sum is no signed byte (R102). -/
theorem overflowAdd_add8 (v : Variant) (a b : Byte) (cin : Bool) :
    overflowAdd a b (add8 v a b cin).1 = true ↔ ¬ FitsSigned8 (a.toInt + b.toInt + cin.toNat) := by
  have ha := a.isLt
  have hb := b.isLt
  have hr := toNat_add8 v a b cin
  have hc : cin.toNat ≤ 1 := by cases cin <;> decide
  simp only [overflowAdd, getLsbD_seven, toInt_eq, FitsSigned8, Bool.and_eq_true,
    beq_iff_eq, bne_iff_ne, ne_eq, decide_eq_decide]
  split <;> split <;> omega

/-- The difference modulo 256. -/
theorem toNat_sub8 (v : Variant) (a b : Byte) (bin : Bool) :
    ((sub8 v a b bin).1.toNat : Int) = ((a.toNat : Int) - b.toNat - bin.toNat) % 256 := by
  have e : (sub8 v a b bin).1.toNat = (a.toNat + (255 - b.toNat) + (!bin).toNat) % 256 := by
    simp [sub8, BitVec.toNat_not]
  have hb := b.isLt
  rw [e]
  cases bin <;> simp <;> omega

/-- C of a subtraction is the borrow. -/
theorem sub8_c (v : Variant) (a b : Byte) (bin : Bool) :
    (sub8 v a b bin).2.c = some (decide (a.toNat < b.toNat + bin.toNat)) := by
  have hb := b.isLt
  have ha := a.isLt
  simp only [sub8, BitVec.toNat_not, Option.some.injEq]
  rw [← decide_not, decide_eq_decide]
  cases bin <;> simp <;> omega

/-- H of a subtraction is 1 exactly when the low nibble borrows nothing (D6). -/
theorem sub8_h (v : Variant) (a b : Byte) (bin : Bool) :
    (sub8 v a b bin).2.h = some (decide (b.toNat % 16 + bin.toNat ≤ a.toNat % 16)) := by
  have hb := b.isLt
  simp only [sub8, BitVec.toNat_not, Option.some.injEq, decide_eq_decide]
  cases bin <;> simp <;> omega

theorem sub8_z (v : Variant) (a b : Byte) (bin : Bool) :
    (sub8 v a b bin).2.z = some ((sub8 v a b bin).1 == 0) := rfl

theorem sub8_s (v : Variant) (a b : Byte) (bin : Bool) :
    (sub8 v a b bin).2.s = some ((sub8 v a b bin).1.getLsbD 7) := rfl

theorem sub8_p (v : Variant) (a b : Byte) (bin : Bool) :
    (sub8 v a b bin).2.p =
      some (parityOverflow v (overflowSub a b (sub8 v a b bin).1) (sub8 v a b bin).1) := rfl

/-- The overflow flag of a subtraction says that the exact signed difference is no signed byte
(R102). -/
theorem overflowSub_sub8 (v : Variant) (a b : Byte) (bin : Bool) :
    overflowSub a b (sub8 v a b bin).1 = true ↔ ¬ FitsSigned8 (a.toInt - b.toInt - bin.toNat) := by
  have ha := a.isLt
  have hb := b.isLt
  have hr := toNat_sub8 v a b bin
  have hc : bin.toNat ≤ 1 := by cases bin <;> decide
  simp only [overflowSub, getLsbD_seven, toInt_eq, FitsSigned8, Bool.and_eq_true,
    bne_iff_ne, ne_eq, decide_eq_decide]
  split <;> split <;> omega

/-! ### `add16` -/

theorem toNat_add16 (v : Variant) (a b : Word) :
    (add16 v a b).1.toNat = (a.toNat + b.toNat) % 65536 := by
  cases v <;> rfl

theorem add16_c (v : Variant) (a b : Word) :
    (add16 v a b).2.c = some (decide (65536 ≤ a.toNat + b.toNat)) := by
  cases v <;> rfl

/-- S, Z and P are not written by a 16-bit addition; H is written in VZ80 only (R110). -/
theorem add16_unwritten (v : Variant) (a b : Word) :
    (add16 v a b).2.s = none ∧ (add16 v a b).2.z = none ∧ (add16 v a b).2.p = none ∧
      (add16 .v85 a b).2.h = none := by
  cases v <;> exact ⟨rfl, rfl, rfl, rfl⟩

theorem add16_h_vz80 (a b : Word) :
    (add16 .vz80 a b).2.h = some (decide (4096 ≤ a.toNat % 4096 + b.toNat % 4096)) := rfl

end Sys2Proof.Machine
end

