-- ==== Sys2Proof/Laws/Memory.lean ====
section
/-! SUPPORT. The laws of memory: read after write, and every operation keeps the canonical form. -/

namespace Sys2Proof.Machine

/-! ### Reading after erasing, inserting and writing -/

theorem Memory.readAt_eraseAt_self (m : Memory) (a : Nat) :
    (m.eraseAt a).readAt a = Memory.unlistedByte := by
  induction m with
  | nil => rfl
  | cons c m ih =>
    by_cases h : c.1 = a
    · simpa [Memory.eraseAt, h] using ih
    · simpa [Memory.eraseAt, Memory.readAt, h] using ih

theorem Memory.readAt_eraseAt_of_ne (m : Memory) {a b : Nat} (hb : b ≠ a) :
    (m.eraseAt a).readAt b = m.readAt b := by
  induction m with
  | nil => rfl
  | cons c m ih =>
    by_cases h : c.1 = a
    · have hcb : c.1 ≠ b := fun e => hb (e ▸ h)
      simpa [Memory.eraseAt, Memory.readAt, h, hcb, Ne.symm hb] using ih
    · by_cases hcb : c.1 = b <;> simp [Memory.eraseAt, Memory.readAt, h, hcb, hb, ih]

theorem Memory.ne_of_mem_eraseAt {m : Memory} {a : Nat} : ∀ c ∈ m.eraseAt a, c.1 ≠ a := by
  induction m with
  | nil => simp [Memory.eraseAt]
  | cons c m ih =>
    by_cases h : c.1 = a
    · simpa [Memory.eraseAt, h] using ih
    · simp only [Memory.eraseAt, h, if_false, List.mem_cons, forall_eq_or_imp]
      exact ⟨h, ih⟩

theorem Memory.readAt_insertAt_self (m : Memory) (a : Nat) (v : Byte) (h : ∀ c ∈ m, c.1 ≠ a) :
    (Memory.insertAt m a v).readAt a = v := by
  induction m with
  | nil => simp [Memory.insertAt, Memory.readAt]
  | cons c m ih =>
    simp only [List.mem_cons, forall_eq_or_imp] at h
    by_cases hlt : a < c.1
    · simp [Memory.insertAt, Memory.readAt, hlt]
    · simp [Memory.insertAt, Memory.readAt, hlt, h.1, ih h.2]

theorem Memory.readAt_insertAt_of_ne (m : Memory) {a b : Nat} (v : Byte) (hb : b ≠ a) :
    (m.insertAt a v).readAt b = m.readAt b := by
  induction m with
  | nil => simp [Memory.insertAt, Memory.readAt, Ne.symm hb]
  | cons c m ih =>
    by_cases hlt : a < c.1
    · simp [Memory.insertAt, Memory.readAt, hlt, Ne.symm hb]
    · simp only [Memory.insertAt, if_neg hlt, Memory.readAt, ih]

/-- A byte written reads back. -/
@[simp] theorem Memory.readAt_writeAt_self (m : Memory) (a : Nat) (v : Byte) :
    (m.writeAt a v).readAt a = v := by
  by_cases h : v = Memory.unlistedByte
  · simp [Memory.writeAt, h, Memory.readAt_eraseAt_self]
  · simp [Memory.writeAt, h, Memory.readAt_insertAt_self _ _ _ Memory.ne_of_mem_eraseAt]

/-- A write leaves every other cell as it was. -/
theorem Memory.readAt_writeAt_of_ne (m : Memory) {a b : Nat} (v : Byte) (hb : b ≠ a) :
    (m.writeAt a v).readAt b = m.readAt b := by
  by_cases h : v = Memory.unlistedByte
  · simp [Memory.writeAt, h, Memory.readAt_eraseAt_of_ne _ hb]
  · simp [Memory.writeAt, h, Memory.readAt_insertAt_of_ne _ _ hb, Memory.readAt_eraseAt_of_ne _ hb]

/-! ### The canonical form -/

theorem Memory.wfFrom_cons (lo : Nat) (c : Host.Cell) (m : Memory) :
    Memory.wfFrom lo (c :: m) = true ↔
      lo ≤ c.1 ∧ c.1 < 65536 ∧ c.2 ≠ Memory.unlistedByte ∧ Memory.wfFrom (c.1 + 1) m = true := by
  simp [Memory.wfFrom, and_assoc]

theorem Memory.wfFrom_mono {lo lo' : Nat} {m : Memory} (h : Memory.wfFrom lo m = true)
    (hle : lo' ≤ lo) : Memory.wfFrom lo' m = true := by
  cases m with
  | nil => rfl
  | cons c m =>
    rw [Memory.wfFrom_cons] at h ⊢
    exact ⟨by omega, h.2⟩

theorem Memory.eraseAt_wfFrom {lo : Nat} {m : Memory} (a : Nat) (h : Memory.wfFrom lo m = true) :
    Memory.wfFrom lo (m.eraseAt a) = true := by
  induction m generalizing lo with
  | nil => rfl
  | cons c m ih =>
    rw [Memory.wfFrom_cons] at h
    by_cases hc : c.1 = a
    · simp only [Memory.eraseAt, hc, if_true]
      exact Memory.wfFrom_mono (ih h.2.2.2) (by omega)
    · simp only [Memory.eraseAt, hc, if_false]
      exact (Memory.wfFrom_cons _ _ _).2 ⟨h.1, h.2.1, h.2.2.1, ih h.2.2.2⟩

theorem Memory.insertAt_wfFrom {lo : Nat} {m : Memory} {a : Nat} {v : Byte}
    (h : Memory.wfFrom lo m = true) (hlo : lo ≤ a) (ha : a < 65536) (hv : v ≠ Memory.unlistedByte)
    (hne : ∀ c ∈ m, c.1 ≠ a) : Memory.wfFrom lo (Memory.insertAt m a v) = true := by
  induction m generalizing lo with
  | nil => exact (Memory.wfFrom_cons _ _ _).2 ⟨hlo, ha, hv, rfl⟩
  | cons c m ih =>
    rw [Memory.wfFrom_cons] at h
    simp only [List.mem_cons, forall_eq_or_imp] at hne
    have hc := hne.1
    by_cases hlt : a < c.1
    · simp only [Memory.insertAt, hlt, if_true]
      exact (Memory.wfFrom_cons _ _ _).2
        ⟨hlo, ha, hv, (Memory.wfFrom_cons _ _ _).2 ⟨hlt, h.2⟩⟩
    · simp only [Memory.insertAt, hlt, if_false]
      exact (Memory.wfFrom_cons _ _ _).2
        ⟨h.1, h.2.1, h.2.2.1, ih h.2.2.2 (by omega) hne.2⟩

/-- Writing any byte inside the address space keeps the canonical form. -/
theorem Memory.writeAt_wf {m : Memory} {a : Nat} (v : Byte) (h : m.wf = true) (ha : a < 65536) :
    (m.writeAt a v).wf = true := by
  by_cases hv : v = Memory.unlistedByte
  · rw [Memory.writeAt, if_pos hv]
    exact Memory.eraseAt_wfFrom a h
  · rw [Memory.writeAt, if_neg hv]
    exact Memory.insertAt_wfFrom (Memory.eraseAt_wfFrom a h) (Nat.zero_le a) ha hv
      Memory.ne_of_mem_eraseAt

/-! ### Bytes and words of the machine -/

@[simp] theorem read8_write8_self (s : State) (a : Word) (v : Byte) : (s.write8 a v).read8 a = v :=
  Memory.readAt_writeAt_self _ _ _

theorem read8_write8_of_ne (s : State) {a b : Word} (v : Byte) (h : b ≠ a) :
    (s.write8 a v).read8 b = s.read8 b :=
  Memory.readAt_writeAt_of_ne _ _ fun e => h (BitVec.eq_of_toNat_eq e)

/-- Every byte write of the machine keeps memory in canonical form. -/
theorem write8_wf {s : State} (a : Word) (v : Byte) (h : s.mem.wf = true) :
    (s.write8 a v).mem.wf = true :=
  Memory.writeAt_wf v h a.isLt

theorem write16_wf {s : State} (a : Word) (w : Word) (h : s.mem.wf = true) :
    (s.write16 a w).mem.wf = true :=
  write8_wf _ _ (write8_wf _ _ h)

/-- Two states with the same memory read alike. -/
theorem read8_congr {s t : State} (h : t.mem = s.mem) (a : Word) : t.read8 a = s.read8 a := by
  simp [State.read8, h]

end Sys2Proof.Machine
end

