-- ==== Sys2Proof/Laws/Ops.lean ====
section
/-! SUPPORT. One group of lemmas for each shared operation: everything it changes, and that it
changes nothing else. -/

namespace Sys2Proof.Machine

/-! ### The stack engine -/

/-- Where the two bytes of `push16` go, and that nothing else but SP changes. -/
theorem push16_eq (s : State) (w : Word) :
    s.push16 w = { (s.write8 (s.sp - 1) (high8 w)).write8 (s.sp - 1 - 1) (low8 w) with
      sp := s.sp - 1 - 1 } := rfl

theorem sub_one_sub_one (a : Word) : a - 1#16 - 1#16 = a - 2#16 := by bv_omega

theorem add_one_add_one (a : Word) : a + 1#16 + 1#16 = a + 2#16 := by bv_omega

@[simp] theorem push16_sp (s : State) (w : Word) : (s.push16 w).sp = s.sp - 2 := sub_one_sub_one _

/-- A cell after `push16`. -/
theorem push16_read8 (s : State) (w : Word) (a : Word) :
    (s.push16 w).read8 a =
      if a = s.sp - 2 then low8 w else if a = s.sp - 1 then high8 w else s.read8 a := by
  have e : s.sp - 1 - 1 = s.sp - 2 := sub_one_sub_one _
  rw [push16_eq, e]
  show State.read8 ((s.write8 (s.sp - 1) (high8 w)).write8 (s.sp - 2) (low8 w)) a = _
  by_cases h2 : a = s.sp - 2
  · simp [h2]
  · rw [read8_write8_of_ne _ _ h2, if_neg h2]
    by_cases h1 : a = s.sp - 1
    · simp [h1]
    · rw [read8_write8_of_ne _ _ h1, if_neg h1]

@[simp] theorem pop16_word (s : State) : s.pop16.1 = joinBytes (s.read8 (s.sp + 1)) (s.read8 s.sp) := rfl

theorem pop16_state (s : State) : s.pop16.2 = { s with sp := s.sp + 1 + 1 } := rfl

/-! ### Block transfer -/

/-- A cell after one block step. -/
theorem blockStep_read8 (s : State) (dir : Direction) (a : Word) :
    (s.blockStep dir).read8 a = if a = s.de then s.read8 s.hl else s.read8 a := by
  show (s.write8 s.de (s.read8 s.hl)).read8 a = _
  by_cases h : a = s.de
  · simp [h]
  · rw [read8_write8_of_ne _ _ h, if_neg h]

@[simp] theorem blockStep_hl (s : State) (dir : Direction) : (s.blockStep dir).hl = dir.move s.hl := by
  simp [State.blockStep]

@[simp] theorem blockStep_de (s : State) (dir : Direction) : (s.blockStep dir).de = dir.move s.de := by
  simp [State.blockStep]

@[simp] theorem blockStep_bc (s : State) (dir : Direction) : (s.blockStep dir).bc = s.bc - 1 :=
  bc_setBC _ _

/-- One block step changes B, C, D, E, H, L and memory, nothing else. -/
theorem blockStep_frame (s : State) (dir : Direction) :
    s.blockStep dir = { s with
      main := { (s.blockStep dir).main with a := s.main.a, f := s.main.f }
      mem := (s.blockStep dir).mem } := rfl

theorem blockLoop_zero (dir : Direction) (s : State) : State.blockLoop dir 0 s = s := rfl

theorem blockLoop_succ (dir : Direction) (k : Nat) (s : State) :
    State.blockLoop dir (k + 1) s =
      if s.bc = 0 then s else State.blockLoop dir k (s.blockStep dir) := rfl

/-- A loop that holds a property of the state through every round holds it at the end. -/
theorem blockLoop_induction {P : State → Prop} {dir : Direction}
    (hstep : ∀ s, P s → P (s.blockStep dir)) :
    ∀ (k : Nat) (s : State), P s → P (State.blockLoop dir k s)
  | 0, _, h => h
  | k + 1, s, h => by
    rw [blockLoop_succ]
    split
    · exact h
    · exact blockLoop_induction hstep k _ (hstep s h)

/-- The repeat loop changes B, C, D, E, H, L and memory, nothing else. -/
theorem blockLoop_frame (dir : Direction) (k : Nat) (s : State) :
    State.blockLoop dir k s = { s with
      main := { (State.blockLoop dir k s).main with a := s.main.a, f := s.main.f }
      mem := (State.blockLoop dir k s).mem } :=
  blockLoop_induction
    (P := fun t => t = { s with main := { t.main with a := s.main.a, f := s.main.f }, mem := t.mem })
    (fun t h => by
      rw [blockStep_frame t dir]
      rw [h])
    k s rfl

/-! ### The device model -/

theorem portReply_cons (s : State) (n : Byte) {r : PortReply} {rest : List PortReply}
    (h : s.portReplies = r :: rest) : s.portReply n = r := by
  simp [State.portReply, h]

theorem portReply_nil (s : State) (n : Byte) (h : s.portReplies = []) :
    s.portReply n = .ok (Config.freePortByte s.portCalls n) := by
  simp [State.portReply, h]

end Sys2Proof.Machine
end

