-- ==== Sys2Proof/Laws/PerInstr.lean ====
section
/-! SUPPORT. Statements made of every instruction, one lemma for each constructor. -/

namespace Sys2Proof.Laws

/-- The encoding of an instruction has exactly as many bytes as the `length` column gives it
(30_encoding.md R70). -/
def EncodeLength.Statement (i : Instr) : Prop := (encode i).length = i.length

theorem EncodeLength.addR (r : Reg8) : EncodeLength.Statement (.addR r) := rfl
theorem EncodeLength.addAtHL : EncodeLength.Statement .addAtHL := rfl
theorem EncodeLength.addN (n : Byte) : EncodeLength.Statement (.addN n) := rfl
theorem EncodeLength.addAtXYd (x : IndexReg) (d : Byte) : EncodeLength.Statement (.addAtXYd x d) := rfl
theorem EncodeLength.adcR (r : Reg8) : EncodeLength.Statement (.adcR r) := rfl
theorem EncodeLength.adcAtHL : EncodeLength.Statement .adcAtHL := rfl
theorem EncodeLength.adcN (n : Byte) : EncodeLength.Statement (.adcN n) := rfl
theorem EncodeLength.adcAtXYd (x : IndexReg) (d : Byte) : EncodeLength.Statement (.adcAtXYd x d) := rfl
theorem EncodeLength.subR (r : Reg8) : EncodeLength.Statement (.subR r) := rfl
theorem EncodeLength.subAtHL : EncodeLength.Statement .subAtHL := rfl
theorem EncodeLength.subN (n : Byte) : EncodeLength.Statement (.subN n) := rfl
theorem EncodeLength.subAtXYd (x : IndexReg) (d : Byte) : EncodeLength.Statement (.subAtXYd x d) := rfl
theorem EncodeLength.sbcR (r : Reg8) : EncodeLength.Statement (.sbcR r) := rfl
theorem EncodeLength.sbcAtHL : EncodeLength.Statement .sbcAtHL := rfl
theorem EncodeLength.sbcN (n : Byte) : EncodeLength.Statement (.sbcN n) := rfl
theorem EncodeLength.sbcAtXYd (x : IndexReg) (d : Byte) : EncodeLength.Statement (.sbcAtXYd x d) := rfl
theorem EncodeLength.andR (r : Reg8) : EncodeLength.Statement (.andR r) := rfl
theorem EncodeLength.andAtHL : EncodeLength.Statement .andAtHL := rfl
theorem EncodeLength.andN (n : Byte) : EncodeLength.Statement (.andN n) := rfl
theorem EncodeLength.andAtXYd (x : IndexReg) (d : Byte) : EncodeLength.Statement (.andAtXYd x d) := rfl
theorem EncodeLength.xorR (r : Reg8) : EncodeLength.Statement (.xorR r) := rfl
theorem EncodeLength.xorAtHL : EncodeLength.Statement .xorAtHL := rfl
theorem EncodeLength.xorN (n : Byte) : EncodeLength.Statement (.xorN n) := rfl
theorem EncodeLength.xorAtXYd (x : IndexReg) (d : Byte) : EncodeLength.Statement (.xorAtXYd x d) := rfl
theorem EncodeLength.orR (r : Reg8) : EncodeLength.Statement (.orR r) := rfl
theorem EncodeLength.orAtHL : EncodeLength.Statement .orAtHL := rfl
theorem EncodeLength.orN (n : Byte) : EncodeLength.Statement (.orN n) := rfl
theorem EncodeLength.orAtXYd (x : IndexReg) (d : Byte) : EncodeLength.Statement (.orAtXYd x d) := rfl
theorem EncodeLength.cpR (r : Reg8) : EncodeLength.Statement (.cpR r) := rfl
theorem EncodeLength.cpAtHL : EncodeLength.Statement .cpAtHL := rfl
theorem EncodeLength.cpN (n : Byte) : EncodeLength.Statement (.cpN n) := rfl
theorem EncodeLength.cpAtXYd (x : IndexReg) (d : Byte) : EncodeLength.Statement (.cpAtXYd x d) := rfl
theorem EncodeLength.incR (r : Reg8) : EncodeLength.Statement (.incR r) := rfl
theorem EncodeLength.incAtHL : EncodeLength.Statement .incAtHL := rfl
theorem EncodeLength.incAtXYd (x : IndexReg) (d : Byte) : EncodeLength.Statement (.incAtXYd x d) := rfl
theorem EncodeLength.decR (r : Reg8) : EncodeLength.Statement (.decR r) := rfl
theorem EncodeLength.decAtHL : EncodeLength.Statement .decAtHL := rfl
theorem EncodeLength.decAtXYd (x : IndexReg) (d : Byte) : EncodeLength.Statement (.decAtXYd x d) := rfl
theorem EncodeLength.addHLSS (p : Pair) : EncodeLength.Statement (.addHLSS p) := rfl
theorem EncodeLength.addXYPP (x : IndexReg) (p : IndexPair) : EncodeLength.Statement (.addXYPP x p) := rfl
theorem EncodeLength.incSS (p : Pair) : EncodeLength.Statement (.incSS p) := rfl
theorem EncodeLength.incXY (x : IndexReg) : EncodeLength.Statement (.incXY x) := rfl
theorem EncodeLength.decSS (p : Pair) : EncodeLength.Statement (.decSS p) := rfl
theorem EncodeLength.decXY (x : IndexReg) : EncodeLength.Statement (.decXY x) := rfl
theorem EncodeLength.cpl : EncodeLength.Statement .cpl := rfl
theorem EncodeLength.daa : EncodeLength.Statement .daa := rfl
theorem EncodeLength.ldRR (rd : Reg8) (rs : Reg8) : EncodeLength.Statement (.ldRR rd rs) := rfl
theorem EncodeLength.ldRAtHL (r : Reg8) : EncodeLength.Statement (.ldRAtHL r) := rfl
theorem EncodeLength.ldAtHLR (r : Reg8) : EncodeLength.Statement (.ldAtHLR r) := rfl
theorem EncodeLength.ldRN (r : Reg8) (n : Byte) : EncodeLength.Statement (.ldRN r n) := rfl
theorem EncodeLength.ldAtHLN (n : Byte) : EncodeLength.Statement (.ldAtHLN n) := rfl
theorem EncodeLength.ldAAtBC : EncodeLength.Statement .ldAAtBC := rfl
theorem EncodeLength.ldAAtDE : EncodeLength.Statement .ldAAtDE := rfl
theorem EncodeLength.ldAtBCA : EncodeLength.Statement .ldAtBCA := rfl
theorem EncodeLength.ldAtDEA : EncodeLength.Statement .ldAtDEA := rfl
theorem EncodeLength.ldDDNN (p : Pair) (nn : Word) : EncodeLength.Statement (.ldDDNN p nn) := rfl
theorem EncodeLength.ldAAtNN (nn : Word) : EncodeLength.Statement (.ldAAtNN nn) := rfl
theorem EncodeLength.ldAtNNA (nn : Word) : EncodeLength.Statement (.ldAtNNA nn) := rfl
theorem EncodeLength.ldHLAtNN (nn : Word) : EncodeLength.Statement (.ldHLAtNN nn) := rfl
theorem EncodeLength.ldAtNNHL (nn : Word) : EncodeLength.Statement (.ldAtNNHL nn) := rfl
theorem EncodeLength.ldRAtXYd (r : Reg8) (x : IndexReg) (d : Byte) : EncodeLength.Statement (.ldRAtXYd r x d) := rfl
theorem EncodeLength.ldAtXYdR (x : IndexReg) (d : Byte) (r : Reg8) : EncodeLength.Statement (.ldAtXYdR x d r) := rfl
theorem EncodeLength.exsh : EncodeLength.Statement .exsh := rfl
theorem EncodeLength.jpNN (nn : Word) : EncodeLength.Statement (.jpNN nn) := rfl
theorem EncodeLength.jpCCNN (cc : Cond) (nn : Word) : EncodeLength.Statement (.jpCCNN cc nn) := rfl
theorem EncodeLength.callNN (nn : Word) : EncodeLength.Statement (.callNN nn) := rfl
theorem EncodeLength.callCCNN (cc : Cond) (nn : Word) : EncodeLength.Statement (.callCCNN cc nn) := rfl
theorem EncodeLength.ret : EncodeLength.Statement .ret := rfl
theorem EncodeLength.retCC (cc : Cond) : EncodeLength.Statement (.retCC cc) := rfl
theorem EncodeLength.halt : EncodeLength.Statement .halt := rfl
theorem EncodeLength.ldi : EncodeLength.Statement .ldi := rfl
theorem EncodeLength.ldd : EncodeLength.Statement .ldd := rfl
theorem EncodeLength.ldir : EncodeLength.Statement .ldir := rfl
theorem EncodeLength.lddr : EncodeLength.Statement .lddr := rfl
theorem EncodeLength.pushQQ (q : StackPair) : EncodeLength.Statement (.pushQQ q) := rfl
theorem EncodeLength.pushAF : EncodeLength.Statement .pushAF := rfl
theorem EncodeLength.popAF : EncodeLength.Statement .popAF := rfl
theorem EncodeLength.popQQ (q : StackPair) : EncodeLength.Statement (.popQQ q) := rfl
theorem EncodeLength.pushXY (x : IndexReg) : EncodeLength.Statement (.pushXY x) := rfl
theorem EncodeLength.popXY (x : IndexReg) : EncodeLength.Statement (.popXY x) := rfl
theorem EncodeLength.inAN (n : Byte) : EncodeLength.Statement (.inAN n) := rfl
theorem EncodeLength.outNA (n : Byte) : EncodeLength.Statement (.outNA n) := rfl

end Sys2Proof.Laws
end

