-- ==== Sys2Proof/Laws/Step.lean ====
section
/-! SUPPORT. What one step can do, said once, with the guards. -/

namespace Sys2Proof.Machine

theorem decodeAtPc_eq (s : State) :
    s.decodeAtPc = decode s.variant (s.read8 s.pc) (s.read8 (s.pc + 1)) (s.read8 (s.pc + 2)) := rfl

theorem step_halted {s : State} (h : s.run = .halted) : step s = .next s := by
  simp [step, h]

theorem step_ok {s : State} {i : Instr} (hr : s.run = .running) (hd : s.decodeAtPc = .ok i) :
    step s = exec i s := by
  simp [step, hr, hd]

theorem step_error {s : State} {reason : DecodeReason} (hr : s.run = .running)
    (hd : s.decodeAtPc = .error reason) : step s = .fault (.decodeError reason) := by
  simp [step, hr, hd, raiseError]

/-- A step leaves a HALTED machine alone, raises a DecodeError, or runs the decoded instruction. -/
theorem step_cases (s : State) :
    (s.run = .halted ∧ step s = .next s) ∨
    (s.run = .running ∧ ∃ reason, s.decodeAtPc = .error reason ∧
      step s = .fault (.decodeError reason)) ∨
    (s.run = .running ∧ ∃ i, s.decodeAtPc = .ok i ∧ step s = exec i s) := by
  cases hr : s.run with
  | halted => exact .inl ⟨rfl, step_halted hr⟩
  | running =>
    cases hd : s.decodeAtPc with
    | error reason => exact .inr (.inl ⟨rfl, reason, rfl, step_error hr hd⟩)
    | ok i => exact .inr (.inr ⟨rfl, i, rfl, step_ok hr hd⟩)

/-- Three bytes stored at PC are what a fetch reads. -/
theorem fetch_storeAtPc (s : State) (bytes : Byte × Byte × Byte) : (s.storeAtPc bytes).fetch = bytes := by
  obtain ⟨b0, b1, b2⟩ := bytes
  have h1 : s.pc ≠ s.pc + 1 := by bv_omega
  have h2 : s.pc ≠ s.pc + 2 := by bv_omega
  have h3 : s.pc + 1 ≠ s.pc + 2 := by bv_omega
  have e0 := read8_write8_of_ne ((s.write8 s.pc b0).write8 (s.pc + 1) b1) b2 h2
  have e1 := read8_write8_of_ne ((s.write8 s.pc b0).write8 (s.pc + 1) b1) b2 h3
  rw [read8_write8_of_ne _ _ h1, read8_write8_self] at e0
  rw [read8_write8_self] at e1
  exact Prod.ext e0 (Prod.ext e1 (read8_write8_self _ _ _))

/-- The word the host places is what the next step decodes. -/
theorem decodeAtPc_withFetchWord (s : State) (nbits w : Nat) :
    (s.withFetchWord nbits w).decodeAtPc =
      decode s.variant (tableBytes nbits w).1 (tableBytes nbits w).2.1 (tableBytes nbits w).2.2 := by
  have h : ∀ bytes, ({ s.storeAtPc bytes with run := .running } : State).decodeAtPc =
      decode s.variant bytes.1 bytes.2.1 bytes.2.2 := by
    intro bytes
    have h := fetch_storeAtPc s bytes
    unfold State.decodeAtPc
    rw [show ({ s.storeAtPc bytes with run := .running } : State).fetch = bytes from h]
    rfl
  exact h (tableBytes nbits w)

end Sys2Proof.Machine
end

