-- ==== Sys2Proof/Laws/Updates.lean ====
section
/-! SUPPORT. What each shared operation of several parts leaves as it was, one lemma for each field,
and the values of the fields it writes where they are short. -/

namespace Sys2Proof.Machine

/-- The whole loop of a repeat form changes B, C, D, E, H, L and memory, nothing else. -/
theorem blockRepeat_frame (s : State) (dir : Direction) :
    s.blockRepeat dir = { s with
      main := { (s.blockRepeat dir).main with a := s.main.a, f := s.main.f }
      mem := (s.blockRepeat dir).mem } :=
  blockLoop_frame dir s.bc.toNat s

/-! ### `write16` -/

@[simp] theorem write16_main_a (s : State) (addr w : Word) :
    (s.write16 addr w).main.a = s.main.a := rfl
@[simp] theorem write16_main_f (s : State) (addr w : Word) :
    (s.write16 addr w).main.f = s.main.f := rfl
@[simp] theorem write16_main_b (s : State) (addr w : Word) :
    (s.write16 addr w).main.b = s.main.b := rfl
@[simp] theorem write16_main_c (s : State) (addr w : Word) :
    (s.write16 addr w).main.c = s.main.c := rfl
@[simp] theorem write16_main_d (s : State) (addr w : Word) :
    (s.write16 addr w).main.d = s.main.d := rfl
@[simp] theorem write16_main_e (s : State) (addr w : Word) :
    (s.write16 addr w).main.e = s.main.e := rfl
@[simp] theorem write16_main_h (s : State) (addr w : Word) :
    (s.write16 addr w).main.h = s.main.h := rfl
@[simp] theorem write16_main_l (s : State) (addr w : Word) :
    (s.write16 addr w).main.l = s.main.l := rfl
@[simp] theorem write16_variant (s : State) (addr w : Word) :
    (s.write16 addr w).variant = s.variant := rfl
@[simp] theorem write16_shadow (s : State) (addr w : Word) :
    (s.write16 addr w).shadow = s.shadow := rfl
@[simp] theorem write16_sp (s : State) (addr w : Word) :
    (s.write16 addr w).sp = s.sp := rfl
@[simp] theorem write16_pc (s : State) (addr w : Word) :
    (s.write16 addr w).pc = s.pc := rfl
@[simp] theorem write16_ix (s : State) (addr w : Word) :
    (s.write16 addr w).ix = s.ix := rfl
@[simp] theorem write16_iy (s : State) (addr w : Word) :
    (s.write16 addr w).iy = s.iy := rfl
@[simp] theorem write16_run (s : State) (addr w : Word) :
    (s.write16 addr w).run = s.run := rfl
@[simp] theorem write16_portReplies (s : State) (addr w : Word) :
    (s.write16 addr w).portReplies = s.portReplies := rfl
@[simp] theorem write16_portCalls (s : State) (addr w : Word) :
    (s.write16 addr w).portCalls = s.portCalls := rfl
@[simp] theorem write16_portTrace (s : State) (addr w : Word) :
    (s.write16 addr w).portTrace = s.portTrace := rfl

/-! ### `accumulate` -/

@[simp] theorem accumulate_main_b (s : State) (r : Byte × FlagSet) :
    (s.accumulate r).main.b = s.main.b := rfl
@[simp] theorem accumulate_main_c (s : State) (r : Byte × FlagSet) :
    (s.accumulate r).main.c = s.main.c := rfl
@[simp] theorem accumulate_main_d (s : State) (r : Byte × FlagSet) :
    (s.accumulate r).main.d = s.main.d := rfl
@[simp] theorem accumulate_main_e (s : State) (r : Byte × FlagSet) :
    (s.accumulate r).main.e = s.main.e := rfl
@[simp] theorem accumulate_main_h (s : State) (r : Byte × FlagSet) :
    (s.accumulate r).main.h = s.main.h := rfl
@[simp] theorem accumulate_main_l (s : State) (r : Byte × FlagSet) :
    (s.accumulate r).main.l = s.main.l := rfl
@[simp] theorem accumulate_variant (s : State) (r : Byte × FlagSet) :
    (s.accumulate r).variant = s.variant := rfl
@[simp] theorem accumulate_shadow (s : State) (r : Byte × FlagSet) :
    (s.accumulate r).shadow = s.shadow := rfl
@[simp] theorem accumulate_sp (s : State) (r : Byte × FlagSet) :
    (s.accumulate r).sp = s.sp := rfl
@[simp] theorem accumulate_pc (s : State) (r : Byte × FlagSet) :
    (s.accumulate r).pc = s.pc := rfl
@[simp] theorem accumulate_ix (s : State) (r : Byte × FlagSet) :
    (s.accumulate r).ix = s.ix := rfl
@[simp] theorem accumulate_iy (s : State) (r : Byte × FlagSet) :
    (s.accumulate r).iy = s.iy := rfl
@[simp] theorem accumulate_run (s : State) (r : Byte × FlagSet) :
    (s.accumulate r).run = s.run := rfl
@[simp] theorem accumulate_mem (s : State) (r : Byte × FlagSet) :
    (s.accumulate r).mem = s.mem := rfl
@[simp] theorem accumulate_portReplies (s : State) (r : Byte × FlagSet) :
    (s.accumulate r).portReplies = s.portReplies := rfl
@[simp] theorem accumulate_portCalls (s : State) (r : Byte × FlagSet) :
    (s.accumulate r).portCalls = s.portCalls := rfl
@[simp] theorem accumulate_portTrace (s : State) (r : Byte × FlagSet) :
    (s.accumulate r).portTrace = s.portTrace := rfl
@[simp] theorem accumulate_main_a (s : State) (r : Byte × FlagSet) :
    (s.accumulate r).main.a = r.1 := rfl
@[simp] theorem flag_accumulate (s : State) (r : Byte × FlagSet) (fl : Flag) :
    (s.accumulate r).flag fl = (r.2.get fl).getD (s.flag fl) :=
  getFlag_writeFlags _ _ _ _

/-! ### `modify8` -/

@[simp] theorem modify8_main_a (s : State) (addr : Word) (f : Byte → Byte × FlagSet) :
    (s.modify8 addr f).main.a = s.main.a := rfl
@[simp] theorem modify8_main_b (s : State) (addr : Word) (f : Byte → Byte × FlagSet) :
    (s.modify8 addr f).main.b = s.main.b := rfl
@[simp] theorem modify8_main_c (s : State) (addr : Word) (f : Byte → Byte × FlagSet) :
    (s.modify8 addr f).main.c = s.main.c := rfl
@[simp] theorem modify8_main_d (s : State) (addr : Word) (f : Byte → Byte × FlagSet) :
    (s.modify8 addr f).main.d = s.main.d := rfl
@[simp] theorem modify8_main_e (s : State) (addr : Word) (f : Byte → Byte × FlagSet) :
    (s.modify8 addr f).main.e = s.main.e := rfl
@[simp] theorem modify8_main_h (s : State) (addr : Word) (f : Byte → Byte × FlagSet) :
    (s.modify8 addr f).main.h = s.main.h := rfl
@[simp] theorem modify8_main_l (s : State) (addr : Word) (f : Byte → Byte × FlagSet) :
    (s.modify8 addr f).main.l = s.main.l := rfl
@[simp] theorem modify8_variant (s : State) (addr : Word) (f : Byte → Byte × FlagSet) :
    (s.modify8 addr f).variant = s.variant := rfl
@[simp] theorem modify8_shadow (s : State) (addr : Word) (f : Byte → Byte × FlagSet) :
    (s.modify8 addr f).shadow = s.shadow := rfl
@[simp] theorem modify8_sp (s : State) (addr : Word) (f : Byte → Byte × FlagSet) :
    (s.modify8 addr f).sp = s.sp := rfl
@[simp] theorem modify8_pc (s : State) (addr : Word) (f : Byte → Byte × FlagSet) :
    (s.modify8 addr f).pc = s.pc := rfl
@[simp] theorem modify8_ix (s : State) (addr : Word) (f : Byte → Byte × FlagSet) :
    (s.modify8 addr f).ix = s.ix := rfl
@[simp] theorem modify8_iy (s : State) (addr : Word) (f : Byte → Byte × FlagSet) :
    (s.modify8 addr f).iy = s.iy := rfl
@[simp] theorem modify8_run (s : State) (addr : Word) (f : Byte → Byte × FlagSet) :
    (s.modify8 addr f).run = s.run := rfl
@[simp] theorem modify8_portReplies (s : State) (addr : Word) (f : Byte → Byte × FlagSet) :
    (s.modify8 addr f).portReplies = s.portReplies := rfl
@[simp] theorem modify8_portCalls (s : State) (addr : Word) (f : Byte → Byte × FlagSet) :
    (s.modify8 addr f).portCalls = s.portCalls := rfl
@[simp] theorem modify8_portTrace (s : State) (addr : Word) (f : Byte → Byte × FlagSet) :
    (s.modify8 addr f).portTrace = s.portTrace := rfl
@[simp] theorem flag_modify8 (s : State) (addr : Word) (f : Byte → Byte × FlagSet) (fl : Flag) :
    (s.modify8 addr f).flag fl = ((f (s.read8 addr)).2.get fl).getD (s.flag fl) :=
  getFlag_writeFlags _ _ _ _
theorem modify8_read8 (s : State) (addr : Word) (f : Byte → Byte × FlagSet) (a : Word) :
    (s.modify8 addr f).read8 a = if a = addr then (f (s.read8 addr)).1 else s.read8 a := by
  show (s.write8 addr (f (s.read8 addr)).1).read8 a = _
  by_cases h : a = addr
  · simp [h]
  · rw [read8_write8_of_ne _ _ h, if_neg h]

/-! ### `modifyReg8` -/

@[simp] theorem modifyReg8_variant (s : State) (r : Reg8) (f : Byte → Byte × FlagSet) :
    (s.modifyReg8 r f).variant = s.variant := by cases r <;> rfl
@[simp] theorem modifyReg8_shadow (s : State) (r : Reg8) (f : Byte → Byte × FlagSet) :
    (s.modifyReg8 r f).shadow = s.shadow := by cases r <;> rfl
@[simp] theorem modifyReg8_sp (s : State) (r : Reg8) (f : Byte → Byte × FlagSet) :
    (s.modifyReg8 r f).sp = s.sp := by cases r <;> rfl
@[simp] theorem modifyReg8_pc (s : State) (r : Reg8) (f : Byte → Byte × FlagSet) :
    (s.modifyReg8 r f).pc = s.pc := by cases r <;> rfl
@[simp] theorem modifyReg8_ix (s : State) (r : Reg8) (f : Byte → Byte × FlagSet) :
    (s.modifyReg8 r f).ix = s.ix := by cases r <;> rfl
@[simp] theorem modifyReg8_iy (s : State) (r : Reg8) (f : Byte → Byte × FlagSet) :
    (s.modifyReg8 r f).iy = s.iy := by cases r <;> rfl
@[simp] theorem modifyReg8_run (s : State) (r : Reg8) (f : Byte → Byte × FlagSet) :
    (s.modifyReg8 r f).run = s.run := by cases r <;> rfl
@[simp] theorem modifyReg8_mem (s : State) (r : Reg8) (f : Byte → Byte × FlagSet) :
    (s.modifyReg8 r f).mem = s.mem := by cases r <;> rfl
@[simp] theorem modifyReg8_portReplies (s : State) (r : Reg8) (f : Byte → Byte × FlagSet) :
    (s.modifyReg8 r f).portReplies = s.portReplies := by cases r <;> rfl
@[simp] theorem modifyReg8_portCalls (s : State) (r : Reg8) (f : Byte → Byte × FlagSet) :
    (s.modifyReg8 r f).portCalls = s.portCalls := by cases r <;> rfl
@[simp] theorem modifyReg8_portTrace (s : State) (r : Reg8) (f : Byte → Byte × FlagSet) :
    (s.modifyReg8 r f).portTrace = s.portTrace := by cases r <;> rfl
@[simp] theorem flag_modifyReg8 (s : State) (r : Reg8) (f : Byte → Byte × FlagSet) (fl : Flag) :
    (s.modifyReg8 r f).flag fl = ((f (s.reg8 r)).2.get fl).getD (s.flag fl) := by
  cases r <;> exact getFlag_writeFlags _ _ _ _
@[simp] theorem reg8_modifyReg8_self (s : State) (r : Reg8) (f : Byte → Byte × FlagSet) :
    (s.modifyReg8 r f).reg8 r = (f (s.reg8 r)).1 := by
  cases r <;> rfl

/-! ### `push16` -/

@[simp] theorem push16_main_a (s : State) (w : Word) :
    (s.push16 w).main.a = s.main.a := rfl
@[simp] theorem push16_main_f (s : State) (w : Word) :
    (s.push16 w).main.f = s.main.f := rfl
@[simp] theorem push16_main_b (s : State) (w : Word) :
    (s.push16 w).main.b = s.main.b := rfl
@[simp] theorem push16_main_c (s : State) (w : Word) :
    (s.push16 w).main.c = s.main.c := rfl
@[simp] theorem push16_main_d (s : State) (w : Word) :
    (s.push16 w).main.d = s.main.d := rfl
@[simp] theorem push16_main_e (s : State) (w : Word) :
    (s.push16 w).main.e = s.main.e := rfl
@[simp] theorem push16_main_h (s : State) (w : Word) :
    (s.push16 w).main.h = s.main.h := rfl
@[simp] theorem push16_main_l (s : State) (w : Word) :
    (s.push16 w).main.l = s.main.l := rfl
@[simp] theorem push16_variant (s : State) (w : Word) :
    (s.push16 w).variant = s.variant := rfl
@[simp] theorem push16_shadow (s : State) (w : Word) :
    (s.push16 w).shadow = s.shadow := rfl
@[simp] theorem push16_pc (s : State) (w : Word) :
    (s.push16 w).pc = s.pc := rfl
@[simp] theorem push16_ix (s : State) (w : Word) :
    (s.push16 w).ix = s.ix := rfl
@[simp] theorem push16_iy (s : State) (w : Word) :
    (s.push16 w).iy = s.iy := rfl
@[simp] theorem push16_run (s : State) (w : Word) :
    (s.push16 w).run = s.run := rfl
@[simp] theorem push16_portReplies (s : State) (w : Word) :
    (s.push16 w).portReplies = s.portReplies := rfl
@[simp] theorem push16_portCalls (s : State) (w : Word) :
    (s.push16 w).portCalls = s.portCalls := rfl
@[simp] theorem push16_portTrace (s : State) (w : Word) :
    (s.push16 w).portTrace = s.portTrace := rfl

/-! ### `pop16` -/

@[simp] theorem pop16_main_a (s : State) :
    (s.pop16.2).main.a = s.main.a := rfl
@[simp] theorem pop16_main_f (s : State) :
    (s.pop16.2).main.f = s.main.f := rfl
@[simp] theorem pop16_main_b (s : State) :
    (s.pop16.2).main.b = s.main.b := rfl
@[simp] theorem pop16_main_c (s : State) :
    (s.pop16.2).main.c = s.main.c := rfl
@[simp] theorem pop16_main_d (s : State) :
    (s.pop16.2).main.d = s.main.d := rfl
@[simp] theorem pop16_main_e (s : State) :
    (s.pop16.2).main.e = s.main.e := rfl
@[simp] theorem pop16_main_h (s : State) :
    (s.pop16.2).main.h = s.main.h := rfl
@[simp] theorem pop16_main_l (s : State) :
    (s.pop16.2).main.l = s.main.l := rfl
@[simp] theorem pop16_variant (s : State) :
    (s.pop16.2).variant = s.variant := rfl
@[simp] theorem pop16_shadow (s : State) :
    (s.pop16.2).shadow = s.shadow := rfl
@[simp] theorem pop16_pc (s : State) :
    (s.pop16.2).pc = s.pc := rfl
@[simp] theorem pop16_ix (s : State) :
    (s.pop16.2).ix = s.ix := rfl
@[simp] theorem pop16_iy (s : State) :
    (s.pop16.2).iy = s.iy := rfl
@[simp] theorem pop16_run (s : State) :
    (s.pop16.2).run = s.run := rfl
@[simp] theorem pop16_mem (s : State) :
    (s.pop16.2).mem = s.mem := rfl
@[simp] theorem pop16_portReplies (s : State) :
    (s.pop16.2).portReplies = s.portReplies := rfl
@[simp] theorem pop16_portCalls (s : State) :
    (s.pop16.2).portCalls = s.portCalls := rfl
@[simp] theorem pop16_portTrace (s : State) :
    (s.pop16.2).portTrace = s.portTrace := rfl
@[simp] theorem pop16_sp (s : State) : s.pop16.2.sp = s.sp + 2 := add_one_add_one _

/-! ### `callTo` -/

@[simp] theorem callTo_main_a (s : State) (target : Word) :
    (s.callTo target).main.a = s.main.a := rfl
@[simp] theorem callTo_main_f (s : State) (target : Word) :
    (s.callTo target).main.f = s.main.f := rfl
@[simp] theorem callTo_main_b (s : State) (target : Word) :
    (s.callTo target).main.b = s.main.b := rfl
@[simp] theorem callTo_main_c (s : State) (target : Word) :
    (s.callTo target).main.c = s.main.c := rfl
@[simp] theorem callTo_main_d (s : State) (target : Word) :
    (s.callTo target).main.d = s.main.d := rfl
@[simp] theorem callTo_main_e (s : State) (target : Word) :
    (s.callTo target).main.e = s.main.e := rfl
@[simp] theorem callTo_main_h (s : State) (target : Word) :
    (s.callTo target).main.h = s.main.h := rfl
@[simp] theorem callTo_main_l (s : State) (target : Word) :
    (s.callTo target).main.l = s.main.l := rfl
@[simp] theorem callTo_variant (s : State) (target : Word) :
    (s.callTo target).variant = s.variant := rfl
@[simp] theorem callTo_shadow (s : State) (target : Word) :
    (s.callTo target).shadow = s.shadow := rfl
@[simp] theorem callTo_ix (s : State) (target : Word) :
    (s.callTo target).ix = s.ix := rfl
@[simp] theorem callTo_iy (s : State) (target : Word) :
    (s.callTo target).iy = s.iy := rfl
@[simp] theorem callTo_run (s : State) (target : Word) :
    (s.callTo target).run = s.run := rfl
@[simp] theorem callTo_portReplies (s : State) (target : Word) :
    (s.callTo target).portReplies = s.portReplies := rfl
@[simp] theorem callTo_portCalls (s : State) (target : Word) :
    (s.callTo target).portCalls = s.portCalls := rfl
@[simp] theorem callTo_portTrace (s : State) (target : Word) :
    (s.callTo target).portTrace = s.portTrace := rfl
@[simp] theorem callTo_pc (s : State) (target : Word) : (s.callTo target).pc = target := rfl

/-! ### `returnToCaller` -/

@[simp] theorem returnToCaller_main_a (s : State) :
    (s.returnToCaller).main.a = s.main.a := rfl
@[simp] theorem returnToCaller_main_f (s : State) :
    (s.returnToCaller).main.f = s.main.f := rfl
@[simp] theorem returnToCaller_main_b (s : State) :
    (s.returnToCaller).main.b = s.main.b := rfl
@[simp] theorem returnToCaller_main_c (s : State) :
    (s.returnToCaller).main.c = s.main.c := rfl
@[simp] theorem returnToCaller_main_d (s : State) :
    (s.returnToCaller).main.d = s.main.d := rfl
@[simp] theorem returnToCaller_main_e (s : State) :
    (s.returnToCaller).main.e = s.main.e := rfl
@[simp] theorem returnToCaller_main_h (s : State) :
    (s.returnToCaller).main.h = s.main.h := rfl
@[simp] theorem returnToCaller_main_l (s : State) :
    (s.returnToCaller).main.l = s.main.l := rfl
@[simp] theorem returnToCaller_variant (s : State) :
    (s.returnToCaller).variant = s.variant := rfl
@[simp] theorem returnToCaller_shadow (s : State) :
    (s.returnToCaller).shadow = s.shadow := rfl
@[simp] theorem returnToCaller_ix (s : State) :
    (s.returnToCaller).ix = s.ix := rfl
@[simp] theorem returnToCaller_iy (s : State) :
    (s.returnToCaller).iy = s.iy := rfl
@[simp] theorem returnToCaller_run (s : State) :
    (s.returnToCaller).run = s.run := rfl
@[simp] theorem returnToCaller_mem (s : State) :
    (s.returnToCaller).mem = s.mem := rfl
@[simp] theorem returnToCaller_portReplies (s : State) :
    (s.returnToCaller).portReplies = s.portReplies := rfl
@[simp] theorem returnToCaller_portCalls (s : State) :
    (s.returnToCaller).portCalls = s.portCalls := rfl
@[simp] theorem returnToCaller_portTrace (s : State) :
    (s.returnToCaller).portTrace = s.portTrace := rfl
@[simp] theorem returnToCaller_sp (s : State) : s.returnToCaller.sp = s.sp + 2 := add_one_add_one _
@[simp] theorem returnToCaller_pc (s : State) :
    s.returnToCaller.pc = joinBytes (s.read8 (s.sp + 1)) (s.read8 s.sp) := rfl

/-! ### `blockStep` -/

@[simp] theorem blockStep_main_a (s : State) (dir : Direction) :
    (s.blockStep dir).main.a = s.main.a := rfl
@[simp] theorem blockStep_main_f (s : State) (dir : Direction) :
    (s.blockStep dir).main.f = s.main.f := rfl
@[simp] theorem blockStep_variant (s : State) (dir : Direction) :
    (s.blockStep dir).variant = s.variant := rfl
@[simp] theorem blockStep_shadow (s : State) (dir : Direction) :
    (s.blockStep dir).shadow = s.shadow := rfl
@[simp] theorem blockStep_sp (s : State) (dir : Direction) :
    (s.blockStep dir).sp = s.sp := rfl
@[simp] theorem blockStep_pc (s : State) (dir : Direction) :
    (s.blockStep dir).pc = s.pc := rfl
@[simp] theorem blockStep_ix (s : State) (dir : Direction) :
    (s.blockStep dir).ix = s.ix := rfl
@[simp] theorem blockStep_iy (s : State) (dir : Direction) :
    (s.blockStep dir).iy = s.iy := rfl
@[simp] theorem blockStep_run (s : State) (dir : Direction) :
    (s.blockStep dir).run = s.run := rfl
@[simp] theorem blockStep_portReplies (s : State) (dir : Direction) :
    (s.blockStep dir).portReplies = s.portReplies := rfl
@[simp] theorem blockStep_portCalls (s : State) (dir : Direction) :
    (s.blockStep dir).portCalls = s.portCalls := rfl
@[simp] theorem blockStep_portTrace (s : State) (dir : Direction) :
    (s.blockStep dir).portTrace = s.portTrace := rfl

/-! ### `blockRepeat` -/

@[simp] theorem blockRepeat_main_a (s : State) (dir : Direction) :
    (s.blockRepeat dir).main.a = s.main.a := by rw [blockRepeat_frame]
@[simp] theorem blockRepeat_main_f (s : State) (dir : Direction) :
    (s.blockRepeat dir).main.f = s.main.f := by rw [blockRepeat_frame]
@[simp] theorem blockRepeat_variant (s : State) (dir : Direction) :
    (s.blockRepeat dir).variant = s.variant := by rw [blockRepeat_frame]
@[simp] theorem blockRepeat_shadow (s : State) (dir : Direction) :
    (s.blockRepeat dir).shadow = s.shadow := by rw [blockRepeat_frame]
@[simp] theorem blockRepeat_sp (s : State) (dir : Direction) :
    (s.blockRepeat dir).sp = s.sp := by rw [blockRepeat_frame]
@[simp] theorem blockRepeat_pc (s : State) (dir : Direction) :
    (s.blockRepeat dir).pc = s.pc := by rw [blockRepeat_frame]
@[simp] theorem blockRepeat_ix (s : State) (dir : Direction) :
    (s.blockRepeat dir).ix = s.ix := by rw [blockRepeat_frame]
@[simp] theorem blockRepeat_iy (s : State) (dir : Direction) :
    (s.blockRepeat dir).iy = s.iy := by rw [blockRepeat_frame]
@[simp] theorem blockRepeat_run (s : State) (dir : Direction) :
    (s.blockRepeat dir).run = s.run := by rw [blockRepeat_frame]
@[simp] theorem blockRepeat_portReplies (s : State) (dir : Direction) :
    (s.blockRepeat dir).portReplies = s.portReplies := by rw [blockRepeat_frame]
@[simp] theorem blockRepeat_portCalls (s : State) (dir : Direction) :
    (s.blockRepeat dir).portCalls = s.portCalls := by rw [blockRepeat_frame]
@[simp] theorem blockRepeat_portTrace (s : State) (dir : Direction) :
    (s.blockRepeat dir).portTrace = s.portTrace := by rw [blockRepeat_frame]

/-! ### Memory stays in its canonical form -/

theorem push16_wf {s : State} (w : Word) (h : s.mem.wf = true) : (s.push16 w).mem.wf = true := by
  rw [push16_eq]
  exact write8_wf (s := s.write8 (s.sp - 1) (high8 w)) (s.sp - 1 - 1) (low8 w) (write8_wf _ _ h)

theorem callTo_wf {s : State} (target : Word) (h : s.mem.wf = true) :
    (s.callTo target).mem.wf = true :=
  push16_wf _ h

theorem modify8_wf {s : State} (addr : Word) (f : Byte → Byte × FlagSet) (h : s.mem.wf = true) :
    (s.modify8 addr f).mem.wf = true :=
  write8_wf _ _ h

theorem blockStep_wf {s : State} (dir : Direction) (h : s.mem.wf = true) :
    (s.blockStep dir).mem.wf = true :=
  write8_wf _ _ h

theorem blockRepeat_wf {s : State} (dir : Direction) (h : s.mem.wf = true) :
    (s.blockRepeat dir).mem.wf = true :=
  blockLoop_induction (P := fun t => t.mem.wf = true) (fun _ => blockStep_wf dir) _ s h

theorem storeAtPc_wf {s : State} (bytes : Byte × Byte × Byte) (h : s.mem.wf = true) :
    (s.storeAtPc bytes).mem.wf = true :=
  write8_wf _ _ (write8_wf _ _ (write8_wf _ _ h))

end Sys2Proof.Machine
end

