-- ==== Sys2Proof/Tests/Slice0.lean ====
section
/-! SUPPORT. Tests. The expected values are the spec's: words written out from 30_encoding.md R83 to
R86, results from the vectors of 95_test_vectors.md; and for each statement with hypotheses a
concrete state and operands that meet them. -/

set_option Elab.async false

namespace Sys2Proof.Machine

/-! ### WellFormed refuses what a variant does not have -/

/-- None of the VZ80-only instructions is well formed in V85 (R78); each is in VZ80. -/
theorem test_vz80_rows_are_ill_formed_in_v85 :
    ([
      .addAtXYd .iy 0x00, .adcAtXYd .iy 0x00, .subAtXYd .iy 0x00, .sbcAtXYd .iy 0x00,
      .andAtXYd .iy 0x00, .xorAtXYd .iy 0x00, .orAtXYd .iy 0x00, .cpAtXYd .iy 0x00,
      .incAtXYd .iy 0x00, .decAtXYd .iy 0x00, .addXYPP .iy .xy, .incXY .iy, .decXY .iy, .ldAAtBC,
      .ldAAtDE, .ldAtBCA, .ldAtDEA, .ldRAtXYd .l .iy 0x00, .ldAtXYdR .iy 0x00 .l, .exsh, .ldi,
      .ldd, .ldir, .lddr, .pushXY .iy, .popXY .iy
    ] : List Instr).all (fun i => !i.inTable .v85 && i.inTable .vz80) = true := by decide

theorem test_ill_formed_term_is_refused : ¬ WellFormed .v85 .ldir := by decide

theorem test_shared_term_is_accepted : WellFormed .v85 (.addR .b) ∧ WellFormed .vz80 (.addR .b) := by
  decide

/-! ### Decoding words written out bit by bit -/

/-- The bytes decode to the instruction. -/
def decodesTo (v : Variant) (b0 b1 b2 : Byte) (i : Instr) : Bool :=
  match decode v b0 b1 b2 with
  | .ok j => j == i
  | .error _ => false

theorem test_decode_accumulator_registers_and_memory_1 :
    (decodesTo .v85 0b1000_0101 0b0000_0000 0b0000_0000 (.addR .l) &&
      decodesTo .v85 0b1000_0110 0b0000_0000 0b0000_0000 .addAtHL &&
      decodesTo .v85 0b1000_1001 0b0000_0000 0b0000_0000 (.adcR .c) &&
      decodesTo .v85 0b1000_1110 0b0000_0000 0b0000_0000 .adcAtHL &&
      decodesTo .v85 0b1001_0111 0b0000_0000 0b0000_0000 (.subR .a) &&
      decodesTo .v85 0b1001_0110 0b0000_0000 0b0000_0000 .subAtHL &&
      decodesTo .v85 0b1001_1100 0b0000_0000 0b0000_0000 (.sbcR .h) &&
      decodesTo .v85 0b1001_1110 0b0000_0000 0b0000_0000 .sbcAtHL &&
      decodesTo .v85 0b1010_0011 0b0000_0000 0b0000_0000 (.andR .e)) = true := by
  decide +kernel

theorem test_decode_accumulator_registers_and_memory_2 :
    (decodesTo .v85 0b1010_0110 0b0000_0000 0b0000_0000 .andAtHL &&
      decodesTo .v85 0b1010_1010 0b0000_0000 0b0000_0000 (.xorR .d) &&
      decodesTo .v85 0b1010_1110 0b0000_0000 0b0000_0000 .xorAtHL &&
      decodesTo .v85 0b1011_0000 0b0000_0000 0b0000_0000 (.orR .b) &&
      decodesTo .v85 0b1011_0110 0b0000_0000 0b0000_0000 .orAtHL &&
      decodesTo .v85 0b1011_1101 0b0000_0000 0b0000_0000 (.cpR .l) &&
      decodesTo .v85 0b1011_1110 0b0000_0000 0b0000_0000 .cpAtHL) = true := by
  decide +kernel

theorem test_decode_accumulator_immediate_and_indexed_1 :
    (decodesTo .v85 0b1100_0110 0b0101_1010 0b0000_0000 (.addN 0x5A) &&
      decodesTo .vz80 0b1111_1101 0b1000_0110 0b1111_0000 (.addAtXYd .iy 0xF0) &&
      decodesTo .v85 0b1100_1110 0b0101_1010 0b0000_0000 (.adcN 0x5A) &&
      decodesTo .vz80 0b1101_1101 0b1000_1110 0b1111_0000 (.adcAtXYd .ix 0xF0) &&
      decodesTo .v85 0b1101_0110 0b0101_1010 0b0000_0000 (.subN 0x5A) &&
      decodesTo .vz80 0b1111_1101 0b1001_0110 0b1111_0000 (.subAtXYd .iy 0xF0) &&
      decodesTo .v85 0b1101_1110 0b0101_1010 0b0000_0000 (.sbcN 0x5A) &&
      decodesTo .vz80 0b1101_1101 0b1001_1110 0b1111_0000 (.sbcAtXYd .ix 0xF0) &&
      decodesTo .v85 0b1110_0110 0b0101_1010 0b0000_0000 (.andN 0x5A)) = true := by
  decide +kernel

theorem test_decode_accumulator_immediate_and_indexed_2 :
    (decodesTo .vz80 0b1111_1101 0b1010_0110 0b1111_0000 (.andAtXYd .iy 0xF0) &&
      decodesTo .v85 0b1110_1110 0b0101_1010 0b0000_0000 (.xorN 0x5A) &&
      decodesTo .vz80 0b1101_1101 0b1010_1110 0b1111_0000 (.xorAtXYd .ix 0xF0) &&
      decodesTo .v85 0b1111_0110 0b0101_1010 0b0000_0000 (.orN 0x5A) &&
      decodesTo .vz80 0b1111_1101 0b1011_0110 0b1111_0000 (.orAtXYd .iy 0xF0) &&
      decodesTo .v85 0b1111_1110 0b0101_1010 0b0000_0000 (.cpN 0x5A) &&
      decodesTo .vz80 0b1101_1101 0b1011_1110 0b1111_0000 (.cpAtXYd .ix 0xF0)) = true := by
  decide +kernel

theorem test_decode_inc_dec_wide_cpl_daa_1 :
    (decodesTo .v85 0b0000_1100 0b0000_0000 0b0000_0000 (.incR .c) &&
      decodesTo .v85 0b0011_0100 0b0000_0000 0b0000_0000 .incAtHL &&
      decodesTo .vz80 0b1111_1101 0b0011_0100 0b1111_0000 (.incAtXYd .iy 0xF0) &&
      decodesTo .v85 0b0011_1101 0b0000_0000 0b0000_0000 (.decR .a) &&
      decodesTo .v85 0b0011_0101 0b0000_0000 0b0000_0000 .decAtHL &&
      decodesTo .vz80 0b1101_1101 0b0011_0101 0b1111_0000 (.decAtXYd .ix 0xF0) &&
      decodesTo .v85 0b0001_1001 0b0000_0000 0b0000_0000 (.addHLSS .de) &&
      decodesTo .vz80 0b1111_1101 0b0010_1001 0b0000_0000 (.addXYPP .iy .xy) &&
      decodesTo .v85 0b0011_0011 0b0000_0000 0b0000_0000 (.incSS .sp)) = true := by
  decide +kernel

theorem test_decode_inc_dec_wide_cpl_daa_2 :
    (decodesTo .vz80 0b1101_1101 0b0010_0011 0b0000_0000 (.incXY .ix) &&
      decodesTo .v85 0b0010_1011 0b0000_0000 0b0000_0000 (.decSS .hl) &&
      decodesTo .vz80 0b1111_1101 0b0010_1011 0b0000_0000 (.decXY .iy) &&
      decodesTo .v85 0b0010_1111 0b0000_0000 0b0000_0000 .cpl &&
      decodesTo .v85 0b0010_0111 0b0000_0000 0b0000_0000 .daa) = true := by
  decide +kernel

theorem test_decode_moves_1 :
    (decodesTo .v85 0b0110_0011 0b0000_0000 0b0000_0000 (.ldRR .h .e) &&
      decodesTo .v85 0b0101_0110 0b0000_0000 0b0000_0000 (.ldRAtHL .d) &&
      decodesTo .v85 0b0111_0000 0b0000_0000 0b0000_0000 (.ldAtHLR .b) &&
      decodesTo .v85 0b0010_1110 0b0101_1010 0b0000_0000 (.ldRN .l 0x5A) &&
      decodesTo .v85 0b0011_0110 0b0101_1010 0b0000_0000 (.ldAtHLN 0x5A) &&
      decodesTo .vz80 0b0000_1010 0b0000_0000 0b0000_0000 .ldAAtBC &&
      decodesTo .vz80 0b0001_1010 0b0000_0000 0b0000_0000 .ldAAtDE &&
      decodesTo .vz80 0b0000_0010 0b0000_0000 0b0000_0000 .ldAtBCA &&
      decodesTo .vz80 0b0001_0010 0b0000_0000 0b0000_0000 .ldAtDEA) = true := by
  decide +kernel

theorem test_decode_moves_2 :
    (decodesTo .v85 0b0000_0001 0b0011_0100 0b0001_0010 (.ldDDNN .bc 0x1234) &&
      decodesTo .v85 0b0011_1010 0b0011_0100 0b0001_0010 (.ldAAtNN 0x1234) &&
      decodesTo .v85 0b0011_0010 0b0011_0100 0b0001_0010 (.ldAtNNA 0x1234) &&
      decodesTo .v85 0b0010_1010 0b0011_0100 0b0001_0010 (.ldHLAtNN 0x1234) &&
      decodesTo .v85 0b0010_0010 0b0011_0100 0b0001_0010 (.ldAtNNHL 0x1234) &&
      decodesTo .vz80 0b1101_1101 0b0100_1110 0b1111_0000 (.ldRAtXYd .c .ix 0xF0) &&
      decodesTo .vz80 0b1111_1101 0b0111_0111 0b1111_0000 (.ldAtXYdR .iy 0xF0 .a) &&
      decodesTo .vz80 0b1101_1001 0b0000_0000 0b0000_0000 .exsh) = true := by
  decide +kernel

theorem test_decode_control :
    (decodesTo .v85 0b1100_0011 0b0011_0100 0b0001_0010 (.jpNN 0x1234) &&
      decodesTo .v85 0b1110_1010 0b0011_0100 0b0001_0010 (.jpCCNN .pe 0x1234) &&
      decodesTo .v85 0b1100_1101 0b0011_0100 0b0001_0010 (.callNN 0x1234) &&
      decodesTo .v85 0b1111_1100 0b0011_0100 0b0001_0010 (.callCCNN .m 0x1234) &&
      decodesTo .v85 0b1100_1001 0b0000_0000 0b0000_0000 .ret &&
      decodesTo .v85 0b1101_0000 0b0000_0000 0b0000_0000 (.retCC .nc) &&
      decodesTo .v85 0b0111_0110 0b0000_0000 0b0000_0000 .halt) = true := by
  decide +kernel

theorem test_decode_block :
    (decodesTo .vz80 0b1110_1101 0b1010_0000 0b0000_0000 .ldi &&
      decodesTo .vz80 0b1110_1101 0b1010_1000 0b0000_0000 .ldd &&
      decodesTo .vz80 0b1110_1101 0b1011_0000 0b0000_0000 .ldir &&
      decodesTo .vz80 0b1110_1101 0b1011_1000 0b0000_0000 .lddr) = true := by
  decide +kernel

theorem test_decode_stack :
    (decodesTo .v85 0b1110_0101 0b0000_0000 0b0000_0000 (.pushQQ .hl) &&
      decodesTo .v85 0b1111_0101 0b0000_0000 0b0000_0000 .pushAF &&
      decodesTo .v85 0b1111_0001 0b0000_0000 0b0000_0000 .popAF &&
      decodesTo .v85 0b1101_0001 0b0000_0000 0b0000_0000 (.popQQ .de) &&
      decodesTo .vz80 0b1101_1101 0b1110_0101 0b0000_0000 (.pushXY .ix) &&
      decodesTo .vz80 0b1111_1101 0b1110_0001 0b0000_0000 (.popXY .iy)) = true := by
  decide +kernel

theorem test_decode_ports :
    (decodesTo .v85 0b1101_1011 0b0101_1010 0b0000_0000 (.inAN 0x5A) &&
      decodesTo .v85 0b1101_0011 0b0101_1010 0b0000_0000 (.outNA 0x5A)) = true := by
  decide +kernel

/-- Two illegal first bytes, a prefix in V85, and the memory-to-memory pattern (R87, R88). -/
theorem test_decode_errors :
    decode .v85 0x00 0x00 0x00 = .error .illegalOpcode ∧
    decode .vz80 0xCB 0x00 0x00 = .error .illegalOpcode ∧
    decode .v85 0xDD 0x76 0x00 = .error .illegalOpcode ∧
    decode .vz80 0xDD 0x76 0x00 = .error .illegalOperand ∧
    decode .vz80 0xDD 0x41 0x00 = .error .illegalOpcode := by
  decide +kernel

/-- A prefixed row of the table numbers b0 above b1 (R94). -/
theorem test_table_word :
    decodeTableWord 8 0x80 = some (.addR .b) ∧ decodeTableWord 16 0xFD23 = some (.incXY .iy) ∧
    decodeTableWord 24 0x1234C3 = some (.jpNN 0x1234) := by
  decide +kernel

/-! ### One step of each instruction -/

/-- A machine with its code at 0x0100 and the other cells given, everything else 0. -/
def at0100 (v : Variant) (code : List Byte) (cells : List (Nat × Byte)) : State :=
  { State.reset with
    variant := v
    pc := 0x0100
    mem := Driver.loadImage (code.mapIdx (fun i b => (0x0100 + i, b)) ++ cells) [] }

/-- One step completes and the state after it is as asked. -/
def stepsTo (s : State) (p : State → Bool) : Bool :=
  match step s with
  | .next t => p t
  | _ => false

theorem test_add_register :
    stepsTo { at0100 .v85 [0x80] [] with main.a := 0xFF, main.b := 0x01, main.f := 0x00 }
      (fun t => t.main.a == 0x00 && t.main.f == 0x55 && t.pc == 0x0101) = true := by decide +kernel

theorem test_add_at_hl :
    stepsTo { at0100 .vz80 [0x86] [(0x2000, 0x01)] with main.a := 0xFF, main.f := 0x00, main.h := 0x20, main.l := 0x00 }
      (fun t => t.main.a == 0x00 && t.main.f == 0x51 && t.pc == 0x0101) = true := by decide +kernel

theorem test_add_immediate :
    stepsTo { at0100 .vz80 [0xC6, 0x01] [] with main.a := 0xFF, main.f := 0x00 }
      (fun t => t.main.a == 0x00 && t.main.f == 0x51 && t.pc == 0x0102) = true := by decide +kernel

theorem test_add_indexed :
    stepsTo { at0100 .vz80 [0xFD, 0x86, 0x7F] [(0x0000, 0x01)] with main.a := 0xFF, main.f := 0x00, iy := 0xFF81 }
      (fun t => t.main.a == 0x00 && t.main.f == 0x51 && t.pc == 0x0103) = true := by decide +kernel

theorem test_adc_register :
    stepsTo { at0100 .v85 [0x88] [] with main.a := 0x80, main.b := 0x7F, main.f := 0x01 }
      (fun t => t.main.a == 0x00 && t.main.f == 0x55 && t.pc == 0x0101) = true := by decide +kernel

theorem test_adc_at_hl :
    stepsTo { at0100 .vz80 [0x8E] [(0x2000, 0x7F)] with main.a := 0x80, main.f := 0x01, main.h := 0x20, main.l := 0x00 }
      (fun t => t.main.a == 0x00 && t.main.f == 0x51 && t.pc == 0x0101) = true := by decide +kernel

theorem test_adc_immediate :
    stepsTo { at0100 .vz80 [0xCE, 0x7F] [] with main.a := 0x80, main.f := 0x01 }
      (fun t => t.main.a == 0x00 && t.main.f == 0x51 && t.pc == 0x0102) = true := by decide +kernel

theorem test_adc_indexed :
    stepsTo { at0100 .vz80 [0xFD, 0x8E, 0x7F] [(0x0000, 0x7F)] with main.a := 0x80, main.f := 0x01, iy := 0xFF81 }
      (fun t => t.main.a == 0x00 && t.main.f == 0x51 && t.pc == 0x0103) = true := by decide +kernel

theorem test_sub_register :
    stepsTo { at0100 .v85 [0x90] [] with main.a := 0x80, main.b := 0x01, main.f := 0x00 }
      (fun t => t.main.a == 0x7F && t.main.f == 0x00 && t.pc == 0x0101) = true := by decide +kernel

theorem test_sub_at_hl :
    stepsTo { at0100 .vz80 [0x96] [(0x2000, 0x01)] with main.a := 0x80, main.f := 0x00, main.h := 0x20, main.l := 0x00 }
      (fun t => t.main.a == 0x7F && t.main.f == 0x04 && t.pc == 0x0101) = true := by decide +kernel

theorem test_sub_immediate :
    stepsTo { at0100 .vz80 [0xD6, 0x01] [] with main.a := 0x80, main.f := 0x00 }
      (fun t => t.main.a == 0x7F && t.main.f == 0x04 && t.pc == 0x0102) = true := by decide +kernel

theorem test_sub_indexed :
    stepsTo { at0100 .vz80 [0xFD, 0x96, 0x7F] [(0x0000, 0x01)] with main.a := 0x80, main.f := 0x00, iy := 0xFF81 }
      (fun t => t.main.a == 0x7F && t.main.f == 0x04 && t.pc == 0x0103) = true := by decide +kernel

theorem test_sbc_register :
    stepsTo { at0100 .v85 [0x98] [] with main.a := 0x7F, main.b := 0x80, main.f := 0x01 }
      (fun t => t.main.a == 0xFE && t.main.f == 0x91 && t.pc == 0x0101) = true := by decide +kernel

theorem test_sbc_at_hl :
    stepsTo { at0100 .vz80 [0x9E] [(0x2000, 0x80)] with main.a := 0x7F, main.f := 0x01, main.h := 0x20, main.l := 0x00 }
      (fun t => t.main.a == 0xFE && t.main.f == 0x95 && t.pc == 0x0101) = true := by decide +kernel

theorem test_sbc_immediate :
    stepsTo { at0100 .vz80 [0xDE, 0x80] [] with main.a := 0x7F, main.f := 0x01 }
      (fun t => t.main.a == 0xFE && t.main.f == 0x95 && t.pc == 0x0102) = true := by decide +kernel

theorem test_sbc_indexed :
    stepsTo { at0100 .vz80 [0xFD, 0x9E, 0x7F] [(0x0000, 0x80)] with main.a := 0x7F, main.f := 0x01, iy := 0xFF81 }
      (fun t => t.main.a == 0xFE && t.main.f == 0x95 && t.pc == 0x0103) = true := by decide +kernel

theorem test_and_register :
    stepsTo { at0100 .v85 [0xA0] [] with main.a := 0xF0, main.b := 0x3C, main.f := 0x01 }
      (fun t => t.main.a == 0x30 && t.main.f == 0x04 && t.pc == 0x0101) = true := by decide +kernel

theorem test_and_at_hl :
    stepsTo { at0100 .vz80 [0xA6] [(0x2000, 0x3C)] with main.a := 0xF0, main.f := 0x01, main.h := 0x20, main.l := 0x00 }
      (fun t => t.main.a == 0x30 && t.main.f == 0x04 && t.pc == 0x0101) = true := by decide +kernel

theorem test_and_immediate :
    stepsTo { at0100 .vz80 [0xE6, 0x3C] [] with main.a := 0xF0, main.f := 0x01 }
      (fun t => t.main.a == 0x30 && t.main.f == 0x04 && t.pc == 0x0102) = true := by decide +kernel

theorem test_and_indexed :
    stepsTo { at0100 .vz80 [0xFD, 0xA6, 0x7F] [(0x0000, 0x3C)] with main.a := 0xF0, main.f := 0x01, iy := 0xFF81 }
      (fun t => t.main.a == 0x30 && t.main.f == 0x04 && t.pc == 0x0103) = true := by decide +kernel

theorem test_xor_register :
    stepsTo { at0100 .v85 [0xA8] [] with main.a := 0xFF, main.b := 0x0F, main.f := 0x01 }
      (fun t => t.main.a == 0xF0 && t.main.f == 0x84 && t.pc == 0x0101) = true := by decide +kernel

theorem test_xor_at_hl :
    stepsTo { at0100 .vz80 [0xAE] [(0x2000, 0x0F)] with main.a := 0xFF, main.f := 0x01, main.h := 0x20, main.l := 0x00 }
      (fun t => t.main.a == 0xF0 && t.main.f == 0x84 && t.pc == 0x0101) = true := by decide +kernel

theorem test_xor_immediate :
    stepsTo { at0100 .vz80 [0xEE, 0x0F] [] with main.a := 0xFF, main.f := 0x01 }
      (fun t => t.main.a == 0xF0 && t.main.f == 0x84 && t.pc == 0x0102) = true := by decide +kernel

theorem test_xor_indexed :
    stepsTo { at0100 .vz80 [0xFD, 0xAE, 0x7F] [(0x0000, 0x0F)] with main.a := 0xFF, main.f := 0x01, iy := 0xFF81 }
      (fun t => t.main.a == 0xF0 && t.main.f == 0x84 && t.pc == 0x0103) = true := by decide +kernel

theorem test_or_register :
    stepsTo { at0100 .v85 [0xB0] [] with main.a := 0x81, main.b := 0x02, main.f := 0x01 }
      (fun t => t.main.a == 0x83 && t.main.f == 0x80 && t.pc == 0x0101) = true := by decide +kernel

theorem test_or_at_hl :
    stepsTo { at0100 .vz80 [0xB6] [(0x2000, 0x02)] with main.a := 0x81, main.f := 0x01, main.h := 0x20, main.l := 0x00 }
      (fun t => t.main.a == 0x83 && t.main.f == 0x80 && t.pc == 0x0101) = true := by decide +kernel

theorem test_or_immediate :
    stepsTo { at0100 .vz80 [0xF6, 0x02] [] with main.a := 0x81, main.f := 0x01 }
      (fun t => t.main.a == 0x83 && t.main.f == 0x80 && t.pc == 0x0102) = true := by decide +kernel

theorem test_or_indexed :
    stepsTo { at0100 .vz80 [0xFD, 0xB6, 0x7F] [(0x0000, 0x02)] with main.a := 0x81, main.f := 0x01, iy := 0xFF81 }
      (fun t => t.main.a == 0x83 && t.main.f == 0x80 && t.pc == 0x0103) = true := by decide +kernel

theorem test_cp_register :
    stepsTo { at0100 .v85 [0xB8] [] with main.a := 0x3F, main.b := 0x40, main.f := 0x00 }
      (fun t => t.main.a == 0x3F && t.main.f == 0x95 && t.pc == 0x0101) = true := by decide +kernel

theorem test_cp_at_hl :
    stepsTo { at0100 .vz80 [0xBE] [(0x2000, 0x40)] with main.a := 0x3F, main.f := 0x00, main.h := 0x20, main.l := 0x00 }
      (fun t => t.main.a == 0x3F && t.main.f == 0x91 && t.pc == 0x0101) = true := by decide +kernel

theorem test_cp_immediate :
    stepsTo { at0100 .vz80 [0xFE, 0x40] [] with main.a := 0x3F, main.f := 0x00 }
      (fun t => t.main.a == 0x3F && t.main.f == 0x91 && t.pc == 0x0102) = true := by decide +kernel

theorem test_cp_indexed :
    stepsTo { at0100 .vz80 [0xFD, 0xBE, 0x7F] [(0x0000, 0x40)] with main.a := 0x3F, main.f := 0x00, iy := 0xFF81 }
      (fun t => t.main.a == 0x3F && t.main.f == 0x91 && t.pc == 0x0103) = true := by decide +kernel

theorem test_inc_register :
    stepsTo { at0100 .v85 [0x04] [] with main.b := 0xFF, main.f := 0x01 }
      (fun t => t.main.b == 0x00 && t.main.f == 0x55 && t.pc == 0x0101) = true := by decide +kernel

theorem test_inc_register_overflow :
    stepsTo { at0100 .vz80 [0x04] [] with main.b := 0x7F, main.f := 0x00 }
      (fun t => t.main.b == 0x80 && t.main.f == 0x94) = true := by decide +kernel

theorem test_inc_at_hl :
    stepsTo { at0100 .vz80 [0x34] [(0x2000, 0xFF)] with main.f := 0x01, main.h := 0x20, main.l := 0x00 }
      (fun t => t.read8 0x2000 == 0x00 && t.main.f == 0x51 && t.pc == 0x0101) = true := by decide +kernel

theorem test_inc_indexed :
    stepsTo { at0100 .vz80 [0xDD, 0x34, 0x00] [(0x0000, 0x00)] with main.f := 0xD5 }
      (fun t => t.read8 0x0000 == 0x01 && t.main.f == 0x01 && t.pc == 0x0103) = true := by decide +kernel

theorem test_dec_register :
    stepsTo { at0100 .v85 [0x05] [] with main.b := 0x10, main.f := 0x01 }
      (fun t => t.main.b == 0x0F && t.main.f == 0x05 && t.pc == 0x0101) = true := by decide +kernel

theorem test_dec_at_hl :
    stepsTo { at0100 .v85 [0x35] [] with main.h := 0x20, main.l := 0x00 }
      (fun t => t.read8 0x2000 == 0xFF && t.main.f == 0x84 && t.pc == 0x0101) = true := by decide +kernel

theorem test_dec_indexed :
    stepsTo { at0100 .vz80 [0xFD, 0x35, 0xFF] [(0x2FFF, 0x80)] with iy := 0x3000 }
      (fun t => t.read8 0x2FFF == 0x7F && t.main.f == 0x04 && t.pc == 0x0103) = true := by decide +kernel

theorem test_add_hl_vz80 :
    stepsTo { at0100 .vz80 [0x09] [] with main.h := 0x12, main.l := 0x34, main.b := 0x56, main.c := 0x78, main.f := 0xFF }
      (fun t => t.hl == 0x68AC && t.main.f == 0xEE && t.pc == 0x0101) = true := by decide +kernel

theorem test_add_hl_v85 :
    stepsTo { at0100 .v85 [0x09] [] with main.h := 0x12, main.l := 0x34, main.b := 0x56, main.c := 0x78, main.f := 0xFF }
      (fun t => t.hl == 0x68AC && t.main.f == 0xFE && t.pc == 0x0101) = true := by decide +kernel

theorem test_add_xy_itself :
    stepsTo { at0100 .vz80 [0xDD, 0x29] [] with ix := 0x8FFF }
      (fun t => t.ix == 0x1FFE && t.main.f == 0x11 && t.pc == 0x0102) = true := by decide +kernel

theorem test_inc_pair :
    stepsTo { at0100 .v85 [0x33] [] with sp := 0xFFFF, main.f := 0xD5 }
      (fun t => t.sp == 0x0000 && t.main.f == 0xD5 && t.pc == 0x0101) = true := by decide +kernel

theorem test_inc_xy :
    stepsTo { at0100 .vz80 [0xFD, 0x23] [] with iy := 0xFFFF, main.f := 0xD5 }
      (fun t => t.iy == 0x0000 && t.main.f == 0xD5 && t.pc == 0x0102) = true := by decide +kernel

theorem test_dec_pair :
    stepsTo { at0100 .v85 [0x1B] [] with main.d := 0x01, main.f := 0xD5 }
      (fun t => t.main.d == 0x00 && t.main.e == 0xFF && t.main.f == 0xD5 && t.pc == 0x0101) = true := by decide +kernel

theorem test_dec_xy :
    stepsTo { at0100 .vz80 [0xDD, 0x2B] [] with main.f := 0xD5 }
      (fun t => t.ix == 0xFFFF && t.main.f == 0xD5 && t.pc == 0x0102) = true := by decide +kernel

theorem test_cpl :
    stepsTo { at0100 .v85 [0x2F] [] with main.a := 0xA5, main.f := 0xD5 }
      (fun t => t.main.a == 0x5A && t.main.f == 0xD5 && t.pc == 0x0101) = true := by decide +kernel

theorem test_daa :
    stepsTo { at0100 .v85 [0x27] [] with main.a := 0x40, main.f := 0x10 }
      (fun t => t.main.a == 0x46 && t.main.f == 0x10 && t.pc == 0x0101) = true := by decide +kernel

theorem test_daa_low_carry :
    stepsTo { at0100 .vz80 [0x27] [] with main.a := 0xFA }
      (fun t => t.main.a == 0x60 && t.main.f == 0x05) = true := by decide +kernel

theorem test_ld_register :
    stepsTo { at0100 .vz80 [0x65] [] with main.h := 0x12, main.l := 0xAB }
      (fun t => t.main.h == 0xAB && t.main.l == 0xAB && t.pc == 0x0101) = true := by decide +kernel

theorem test_ld_register_at_hl :
    stepsTo { at0100 .v85 [0x66] [(0x2000, 0x99)] with main.h := 0x20, main.l := 0x00 }
      (fun t => t.main.h == 0x99 && t.main.l == 0x00 && t.pc == 0x0101) = true := by decide +kernel

theorem test_ld_at_hl_register :
    stepsTo { at0100 .v85 [0x75] [] with main.h := 0x20, main.l := 0x34 }
      (fun t => t.read8 0x2034 == 0x34 && t.pc == 0x0101) = true := by decide +kernel

theorem test_ld_register_immediate :
    stepsTo (at0100 .v85 [0x16, 0xFF] [])
      (fun t => t.main.d == 0xFF && t.pc == 0x0102) = true := by decide +kernel

theorem test_ld_at_hl_immediate :
    stepsTo { at0100 .v85 [0x36, 0xA5] [] with main.h := 0x30, main.l := 0x00 }
      (fun t => t.read8 0x3000 == 0xA5 && t.pc == 0x0102) = true := by decide +kernel

theorem test_ld_a_at_bc :
    stepsTo { at0100 .vz80 [0x0A] [(0x4000, 0x11)] with main.b := 0x40 }
      (fun t => t.main.a == 0x11 && t.pc == 0x0101) = true := by decide +kernel

theorem test_ld_a_at_de :
    stepsTo { at0100 .vz80 [0x1A] [(0xFFFF, 0x22)] with main.d := 0xFF, main.e := 0xFF }
      (fun t => t.main.a == 0x22 && t.pc == 0x0101) = true := by decide +kernel

theorem test_ld_at_bc_a :
    stepsTo { at0100 .vz80 [0x02] [] with main.a := 0x33, main.b := 0x40, main.c := 0x01 }
      (fun t => t.read8 0x4001 == 0x33 && t.pc == 0x0101) = true := by decide +kernel

theorem test_ld_at_de_a :
    stepsTo { at0100 .vz80 [0x12] [] with main.a := 0x44 }
      (fun t => t.read8 0x0000 == 0x44 && t.pc == 0x0101) = true := by decide +kernel

theorem test_ld_pair_immediate :
    stepsTo (at0100 .v85 [0x01, 0x34, 0x12] [])
      (fun t => t.main.b == 0x12 && t.main.c == 0x34 && t.pc == 0x0103) = true := by decide +kernel

theorem test_ld_a_direct :
    stepsTo (at0100 .v85 [0x3A, 0x00, 0x20] [(0x2000, 0xAB)])
      (fun t => t.main.a == 0xAB && t.pc == 0x0103) = true := by decide +kernel

theorem test_ld_direct_a :
    stepsTo { at0100 .vz80 [0x32, 0xFF, 0xFF] [] with main.a := 0x5C }
      (fun t => t.read8 0xFFFF == 0x5C && t.pc == 0x0103) = true := by decide +kernel

theorem test_ld_hl_direct :
    stepsTo (at0100 .v85 [0x2A, 0xFF, 0xFF] [(0x0000, 0x12), (0xFFFF, 0x34)])
      (fun t => t.main.h == 0x12 && t.main.l == 0x34 && t.pc == 0x0103) = true := by decide +kernel

theorem test_ld_direct_hl :
    stepsTo { at0100 .vz80 [0x22, 0xFF, 0xFF] [] with main.h := 0xBE, main.l := 0xEF }
      (fun t => t.read8 0x0000 == 0xBE && t.read8 0xFFFF == 0xEF && t.pc == 0x0103) = true := by decide +kernel

theorem test_ld_register_indexed :
    stepsTo { at0100 .vz80 [0xFD, 0x7E, 0x80] [(0xFF90, 0x44)] with iy := 0x0010 }
      (fun t => t.main.a == 0x44 && t.pc == 0x0103) = true := by decide +kernel

theorem test_ld_indexed_register :
    stepsTo { at0100 .vz80 [0xFD, 0x74, 0xFE] [] with iy := 0x3000, main.h := 0x77, main.l := 0x88 }
      (fun t => t.read8 0x2FFE == 0x77 && t.pc == 0x0103) = true := by decide +kernel

theorem test_exsh :
    stepsTo { at0100 .vz80 [0xD9] [] with main.a := 0x01, main.f := 0xD7, shadow.a := 0x11, shadow.f := 0x28, shadow.l := 0x17 }
      (fun t => t.main.a == 0x11 && t.main.f == 0x28 && t.main.l == 0x17 && t.shadow.a == 0x01 && t.shadow.f == 0xD7 && t.pc == 0x0101) = true := by decide +kernel

theorem test_jp :
    stepsTo (at0100 .v85 [0xC3, 0x00, 0x20] [])
      (fun t => t.pc == 0x2000) = true := by decide +kernel

theorem test_jp_cond_taken :
    stepsTo (at0100 .vz80 [0xF2, 0x34, 0x12] [])
      (fun t => t.pc == 0x1234) = true := by decide +kernel

theorem test_jp_cond_not_taken :
    stepsTo { at0100 .vz80 [0xE2, 0x34, 0x12] [] with main.f := 0xD5 }
      (fun t => t.pc == 0x0103) = true := by decide +kernel

theorem test_call :
    stepsTo { at0100 .v85 [0xCD, 0x00, 0x30] [] with sp := 0x2000 }
      (fun t => t.sp == 0x1FFE && t.pc == 0x3000 && t.read8 0x1FFE == 0x03 && t.read8 0x1FFF == 0x01) = true := by decide +kernel

theorem test_call_cond_taken :
    stepsTo { at0100 .v85 [0xCC, 0x00, 0x30] [] with sp := 0x2000, main.f := 0x40 }
      (fun t => t.sp == 0x1FFE && t.pc == 0x3000 && t.read8 0x1FFE == 0x03 && t.read8 0x1FFF == 0x01) = true := by decide +kernel

theorem test_call_cond_not_taken :
    stepsTo { at0100 .v85 [0xCC, 0x00, 0x30] [] with sp := 0x2000 }
      (fun t => t.sp == 0x2000 && t.pc == 0x0103) = true := by decide +kernel

theorem test_ret :
    stepsTo { at0100 .vz80 [0xC9] [(0x0000, 0x56), (0xFFFF, 0x78)] with sp := 0xFFFF }
      (fun t => t.sp == 0x0001 && t.pc == 0x5678) = true := by decide +kernel

theorem test_ret_cond_taken :
    stepsTo { at0100 .v85 [0xD0] [(0x1FFE, 0x03), (0x1FFF, 0x01)] with sp := 0x1FFE }
      (fun t => t.sp == 0x2000 && t.pc == 0x0103) = true := by decide +kernel

theorem test_ret_cond_not_taken :
    stepsTo { at0100 .v85 [0xD0] [(0x1FFE, 0x03), (0x1FFF, 0x01)] with sp := 0x1FFE, main.f := 0x01 }
      (fun t => t.sp == 0x1FFE && t.pc == 0x0101) = true := by decide +kernel

theorem test_halt :
    stepsTo (at0100 .v85 [0x76] [])
      (fun t => t.run == .halted && t.pc == 0x0101) = true := by decide +kernel

theorem test_ldi :
    stepsTo { at0100 .vz80 [0xED, 0xA0] [(0x8000, 0xAA)] with main.h := 0x80, main.l := 0x00, main.d := 0x90, main.c := 0x02, main.f := 0xD5 }
      (fun t => t.read8 0x9000 == 0xAA && t.hl == 0x8001 && t.de == 0x9001 && t.bc == 0x0001 && t.main.f == 0xD5 && t.pc == 0x0102) = true := by decide +kernel

theorem test_ldd :
    stepsTo { at0100 .vz80 [0xED, 0xA8] [(0x0000, 0x77)] with main.c := 0x05 }
      (fun t => t.hl == 0xFFFF && t.de == 0xFFFF && t.bc == 0x0004 && t.read8 0x0000 == 0x77 && t.pc == 0x0102) = true := by decide +kernel

theorem test_ldir :
    stepsTo { at0100 .vz80 [0xED, 0xB0] [(0x8000, 0x55), (0x8001, 0x01), (0x8002, 0x02), (0x8003, 0x03), (0x8004, 0x04)] with main.h := 0x80, main.l := 0x00, main.d := 0x80, main.e := 0x01, main.c := 0x04 }
      (fun t => t.read8 0x8001 == 0x55 && t.read8 0x8004 == 0x55 && t.hl == 0x8004 && t.de == 0x8005 && t.bc == 0x0000 && t.pc == 0x0102) = true := by decide +kernel

theorem test_lddr :
    stepsTo { at0100 .vz80 [0xED, 0xB8] [(0x8000, 0x01), (0x8001, 0x02), (0x8002, 0x03), (0x8003, 0x04), (0x8004, 0x09)] with main.h := 0x80, main.l := 0x03, main.d := 0x80, main.e := 0x04, main.c := 0x04 }
      (fun t => t.read8 0x8001 == 0x01 && t.read8 0x8004 == 0x04 && t.hl == 0x7FFF && t.de == 0x8000 && t.bc == 0x0000 && t.pc == 0x0102) = true := by decide +kernel

theorem test_push_pair :
    stepsTo { at0100 .vz80 [0xD5] [] with main.d := 0xAB, main.e := 0xCD, sp := 0x0001 }
      (fun t => t.sp == 0xFFFF && t.read8 0x0000 == 0xAB && t.read8 0xFFFF == 0xCD && t.pc == 0x0101) = true := by decide +kernel

theorem test_push_af :
    stepsTo { at0100 .vz80 [0xF5] [] with main.a := 0x12, main.f := 0x2A, sp := 0x2000 }
      (fun t => t.read8 0x1FFE == 0x2A && t.read8 0x1FFF == 0x12 && t.sp == 0x1FFE && t.pc == 0x0101) = true := by decide +kernel

theorem test_pop_af :
    stepsTo { at0100 .v85 [0xF1] [(0x1FFE, 0xFF), (0x1FFF, 0x9A)] with sp := 0x1FFE }
      (fun t => t.main.a == 0x9A && t.main.f == 0xFF && t.sp == 0x2000 && t.pc == 0x0101) = true := by decide +kernel

theorem test_pop_pair :
    stepsTo { at0100 .vz80 [0xD1] [(0x0000, 0xAB), (0xFFFF, 0xCD)] with sp := 0xFFFF }
      (fun t => t.main.d == 0xAB && t.main.e == 0xCD && t.sp == 0x0001 && t.pc == 0x0101) = true := by decide +kernel

theorem test_push_xy :
    stepsTo { at0100 .vz80 [0xDD, 0xE5] [] with ix := 0x1234, sp := 0x2000 }
      (fun t => t.sp == 0x1FFE && t.read8 0x1FFE == 0x34 && t.read8 0x1FFF == 0x12 && t.pc == 0x0102) = true := by decide +kernel

theorem test_pop_xy :
    stepsTo { at0100 .vz80 [0xFD, 0xE1] [(0x1FFE, 0x34), (0x1FFF, 0x12)] with sp := 0x1FFE }
      (fun t => t.iy == 0x1234 && t.sp == 0x2000 && t.pc == 0x0102) = true := by decide +kernel

theorem test_in :
    stepsTo { at0100 .v85 [0xDB, 0x10] [] with main.a := 0x77, main.f := 0xD5, portReplies := [.ok 0x5A] }
      (fun t => t.main.a == 0x5A && t.main.f == 0xD5 && t.pc == 0x0102 && t.portTrace == [.input 0x10 0x5A]) = true := by decide +kernel

theorem test_out :
    stepsTo { at0100 .v85 [0xD3, 0x20] [] with main.a := 0x99, main.f := 0xD5, portReplies := [.ok 0x00] }
      (fun t => t.main.a == 0x99 && t.pc == 0x0102 && t.portTrace == [.output 0x20 0x99]) = true := by decide +kernel

theorem test_in_fails :
    (match step { at0100 .v85 [0xDB, 0x10] [] with portReplies := [.failed 7] } with
      | .fault f => f == .portFailure 7
      | _ => false) = true := by decide +kernel

theorem test_out_blocks :
    (match step { at0100 .v85 [0xD3, 0x10] [] with portReplies := [.blocked] } with
      | .fault f => f == .portBlocked
      | _ => false) = true := by decide +kernel

/-- The first step after reset with nothing loaded (R38, R50, R87). -/
theorem test_empty_memory_is_illegal :
    (match step State.reset with
      | .fault f => f == .decodeError .illegalOpcode
      | _ => false) = true := by decide +kernel

theorem test_fetch_word_runs :
    stepsTo (State.reset.withFetchWord 16 0xFD23) (fun t => t.iy == 0x0001 && t.pc == 0x0002) = true := by
  decide +kernel

/-- `run(5)` of INR A; HLT: Halted after two steps (95_test_vectors.md 2.6). -/
theorem test_run_halts :
    (match Driver.run 5 (at0100 .v85 [0x3C, 0x76] []) with
      | some (t, o, n) => t.main.a == 0x01 && t.pc == 0x0102 && o == .halted && n == 2
      | none => false) = true := by decide +kernel

/-! ### States and operands that meet the hypotheses of the statements -/

theorem witness_encoded_instruction :
    WellFormed .vz80 (.ldAtXYdR .iy 0xFF .a) ∧
      encode (.ldAtXYdR .iy 0xFF .a) ++ [0x00, 0xFF] = 0xFD :: 0x77 :: 0xFF :: [0x00, 0xFF] ∧
    WellFormed .v85 .halt ∧ encode .halt ++ [0xDD, 0xFF] = 0x76 :: 0xDD :: 0xFF :: [] := by decide

theorem witness_decoded_bytes :
    decode .vz80 0xFD 0x77 0xFF = .ok (.ldAtXYdR .iy 0xFF .a) ∧ decode .v85 0x76 0xDD 0xFF = .ok .halt :=
  ⟨rfl, rfl⟩

theorem witness_unlisted_bytes :
    (0xFF : Byte) ∉ ([0xDD, 0xFD, 0xED] : List Byte) ∧ decode .vz80 0xFF 0 0 = .error .illegalOpcode ∧
    (0x3E : Byte) ∉ ([0xDD, 0xFD, 0xED] : List Byte) ∧ decode .vz80 0x3E 0 0 = .ok (.ldRN .a 0) ∧
    (0xFD : Byte) ∈ ([0xDD, 0xFD] : List Byte) ∧ decode .vz80 0xFD 0x77 0 = .ok (.ldAtXYdR .iy 0 .a) ∧
    decode .vz80 0xFD 0x21 0 = .error .illegalOpcode ∧ decode .vz80 0xED 0xB0 0 = .ok .ldir ∧
    decode .vz80 0xED 0xB1 0 = .error .illegalOpcode := by
  refine ⟨by decide, rfl, by decide, rfl, by decide, rfl, rfl, rfl, rfl⟩

/-- The bytes of an instruction that wraps around the top of memory. -/
def atTop : State :=
  { at0100 .vz80 [] [(0xFFFE, 0xCD), (0xFFFF, 0x00), (0x0000, 0x30)] with pc := 0xFFFE, sp := 0x0001 }

theorem witness_step_runs :
    atTop.run = .running ∧
    decode atTop.variant (atTop.read8 atTop.pc) (atTop.read8 (atTop.pc + 1)) (atTop.read8 (atTop.pc + 2)) =
      .ok (.callNN 0x3000) :=
  ⟨rfl, rfl⟩

/-- Two illegal steps, one for each reason. -/
def illegal : State := at0100 .vz80 [0xDD, 0x76] []

theorem witness_decode_error :
    illegal.run = .running ∧
    decode illegal.variant (illegal.read8 illegal.pc) (illegal.read8 (illegal.pc + 1))
      (illegal.read8 (illegal.pc + 2)) = .error .illegalOperand ∧
    step illegal = .fault (.decodeError .illegalOperand) ∧
    State.reset.run = .running ∧
    decode State.reset.variant (State.reset.read8 0) (State.reset.read8 1) (State.reset.read8 2) =
      .error .illegalOpcode :=
  ⟨rfl, rfl, rfl, rfl, rfl⟩

theorem witness_halted :
    ({ State.reset with run := .halted } : State).run = .halted ∧
    step { State.reset with run := .halted } = .next { State.reset with run := .halted } :=
  ⟨rfl, rfl⟩

/-- IN with a failing and a blocking device. -/
def inputFrom (r : PortReply) : State := { at0100 .v85 [0xDB, 0x10] [] with portReplies := [r] }

theorem witness_stops :
    exec (.inAN 0x10) (inputFrom (.failed 7)) = .fault (.portFailure 7) ∧
    exec (.outNA 0x10) (inputFrom .blocked) = .fault .portBlocked ∧
    Driver.step (inputFrom (.failed 7)) =
      some ((inputFrom (.failed 7)).portAnswered, .error (.portFailure 7)) :=
  ⟨rfl, rfl, rfl⟩

theorem witness_invariant :
    (at0100 .v85 [0x77] []).Inv ∧ (∃ t, step (at0100 .v85 [0x77] []) = .next t) ∧
    (at0100 .vz80 [0xED, 0xB0] []).Inv ∧ (∃ t, step (at0100 .vz80 [0xED, 0xB0] []) = .next t) := by
  refine ⟨⟨rfl, fun _ => ⟨rfl, rfl, rfl⟩⟩, ⟨_, rfl⟩, ⟨rfl, fun h => absurd h (by decide)⟩, ⟨_, rfl⟩⟩

theorem witness_only_halt :
    (∃ t, step atTop = .next t) ∧
    (∃ t, atTop.run = .running ∧ exec .halt atTop = .next t ∧ t.run = .halted) ∧
    (∃ t, atTop.run = .running ∧ exec .cpl atTop = .next t ∧ t.run = .running) ∧
    (∃ t, step { atTop with run := .halted } = .next t ∧ t.run = .halted) :=
  ⟨⟨_, rfl⟩, ⟨_, rfl, rfl, rfl⟩, ⟨_, rfl, rfl, rfl⟩, ⟨_, rfl, rfl⟩⟩

theorem witness_v85 : (at0100 .v85 [0x80] []).variant = .v85 ∧ ∃ t, step (at0100 .v85 [0x80] []) = .next t :=
  ⟨rfl, _, rfl⟩

theorem witness_pc_advances :
    (∃ t, exec .ldir atTop = .next t) ∧ isControlTransfer .ldir = false ∧
    (∃ t, exec (.inAN 0xFF) (inputFrom (.ok 0)) = .next t) ∧ isControlTransfer (.inAN 0xFF) = false :=
  ⟨⟨_, rfl⟩, rfl, ⟨_, rfl⟩, rfl⟩

theorem witness_flag_frames :
    (∃ t, exec (.incR .a) atTop = .next t) ∧ mayWriteFlag atTop.variant (.incR .a) .c = false ∧
    (∃ t, exec .daa atTop = .next t) ∧ mayWriteFlag atTop.variant .daa .h = false ∧
    (∃ t, exec (.addHLSS .bc) (inputFrom .blocked) = .next t) ∧
      mayWriteFlag (inputFrom .blocked).variant (.addHLSS .bc) .h = false ∧
    mayWriteUnnamedBits .daa = false ∧ mayWriteUnnamedBits .halt = false :=
  ⟨⟨_, rfl⟩, rfl, ⟨_, rfl⟩, rfl, ⟨_, rfl⟩, rfl, rfl, rfl⟩

theorem witness_register_frames :
    (∃ t, exec .ldir atTop = .next t) ∧ mayWriteReg8 .ldir .a = false ∧
    mayWriteSP .ldir = false ∧ mayWriteIndex .ldir .iy = false ∧ Instr.ldir ≠ .exsh ∧
      callsDevice .ldir = false ∧
    (∃ t, exec (.incXY .ix) atTop = .next t) ∧ mayWriteIndex (.incXY .ix) .iy = false ∧
    (∃ t, exec (.decSS .bc) atTop = .next t) ∧ mayWriteReg8 (.decSS .bc) .d = false ∧
      mayWriteSP (.decSS .bc) = false :=
  ⟨⟨_, rfl⟩, rfl, rfl, rfl, by decide, rfl, ⟨_, rfl⟩, rfl, ⟨_, rfl⟩, rfl, rfl⟩

theorem witness_memory_frame :
    (∃ t, exec .pushAF atTop = .next t) ∧ ¬ StoresTo atTop .pushAF 0x0001 ∧
    (∃ t, exec (.cpR .b) atTop = .next t) ∧ ¬ StoresTo atTop (.cpR .b) 0x0000 ∧
    (∃ t, exec .ldir { atTop with main.c := 0x02 } = .next t) ∧
      ¬ StoresTo { atTop with main.c := 0x02 } .ldir 0x0002 := by
  refine ⟨⟨_, rfl⟩, ?_, ⟨_, rfl⟩, fun h => h, ⟨_, rfl⟩, ?_⟩
  · show ¬ ((0x0001 : Word) = 0x0001 - 1 ∨ (0x0001 : Word) = 0x0001 - 2)
    decide
  · rintro ⟨k, hk, e⟩
    have h2 : k < 2 := hk
    have e' : (2 : Word) = 0 + BitVec.ofNat 16 k := e
    bv_omega

theorem witness_decimal : IsBcd ({ State.reset with main.a := 0x99 } : State).main.a ∧ IsBcd 0x00 ∧ IsBcd 0x99 :=
  ⟨⟨by decide, by decide⟩, ⟨by decide, by decide⟩, ⟨by decide, by decide⟩⟩

theorem witness_byte_chain : ({ State.reset with main.a := 0xFF } : State).main.a = low8 0x00FF := by decide

theorem witness_pair_steps : Pair.hl ≠ .sp ∧ Reg8.h ≠ .l := by decide

/-- F holds every flag. -/
def allFlags : State := { atTop with main.f := 0xD5 }

theorem witness_conditions :
    (allFlags.cond .m = true ∧ allFlags.cond .nz = false) ∧
    (atTop.cond .p = true ∧ atTop.cond .pe = false) := by decide +kernel

/-- Two bytes from the top of memory to addresses that wrap. -/
def twoBytes : State := { atTop with main.h := 0xFF, main.l := 0xFE, main.d := 0xFF, main.e := 0xFC, main.c := 0x02 }

theorem witness_disjoint_blocks :
    (∃ t, exec .ldir twoBytes = .next t) ∧ twoBytes.bc = 2 ∧
    (∀ i j, i < twoBytes.bc.toNat → j < twoBytes.bc.toNat →
      twoBytes.hl + BitVec.ofNat 16 i ≠ twoBytes.de + BitVec.ofNat 16 j) ∧
    (∃ t, exec .lddr twoBytes = .next t) ∧
    (∀ i j, i < twoBytes.bc.toNat → j < twoBytes.bc.toNat →
      twoBytes.hl - BitVec.ofNat 16 i ≠ twoBytes.de - BitVec.ofNat 16 j) := by
  have hb : twoBytes.bc.toNat = 2 := by decide +kernel
  have hh : twoBytes.hl = 0xFFFE := by decide +kernel
  have hd : twoBytes.de = 0xFFFC := by decide +kernel
  rw [hb, hh, hd]
  refine ⟨⟨_, rfl⟩, by decide +kernel, ?_, ⟨_, rfl⟩, ?_⟩ <;> intro i j hi hj e <;> bv_omega

theorem witness_overlap :
    (∃ t, exec .ldir { twoBytes with main.e := 0xFF } = .next t) ∧
    ({ twoBytes with main.e := 0xFF } : State).de = ({ twoBytes with main.e := 0xFF } : State).hl + 1 ∧
    (∃ t, exec .lddr { twoBytes with main.e := 0xFF } = .next t) ∧
    1 < ({ twoBytes with main.e := 0xFF } : State).bc.toNat :=
  ⟨⟨_, rfl⟩, by decide +kernel, ⟨_, rfl⟩, by decide +kernel⟩

theorem witness_zero_count : atTop.bc = 0 := by decide +kernel

theorem witness_port_answers :
    (inputFrom (.ok 0x5A)).portReplies = .ok 0x5A :: [] ∧ State.reset.portReplies = [] ∧
    (inputFrom (.failed 7)).portReplies = .failed 7 :: [] ∧
    (inputFrom .blocked).portReplies = .blocked :: [] :=
  ⟨rfl, rfl, rfl, rfl⟩

theorem witness_addresses :
    (0x0001 : Word) ≠ 0xFFFF ∧ (0x0001 : Word) ≠ 0xFFFF + 1 := by decide

theorem witness_canonical :
    Memory.wf [(0, 0x01), (65535, 0xFF)] = true ∧ Memory.wf [(65536, 0x01)] = false ∧
    Memory.wf [(5, 0x00)] = false ∧ Memory.wf [(5, 0x01), (5, 0x02)] = false ∧
    (∀ a, a < 65536 → Memory.readAt [(0, 0x01), (65535, 0xFF)] a =
      Memory.readAt [(0, 0x01), (65535, 0xFF)] a) :=
  ⟨rfl, rfl, rfl, rfl, fun _ _ => rfl⟩

theorem witness_image :
    (([(65535, 0x11), (65536, 0x22)] : List (Nat × Byte)).map fun p => p.1 % 65536).Nodup ∧
    (0x0001 : Word).toNat ∉ ([(65535, 0x11), (65536, 0x22)] : List (Nat × Byte)).map (fun p => p.1 % 65536) := by
  decide

theorem witness_run :
    (∃ t, Driver.run 5 (at0100 .v85 [0x3C, 0x76] []) = some (t, .halted, 2)) ∧
    (∃ t, Driver.run 1 (at0100 .v85 [0x3C, 0x76] []) = some (t, .budgetExhausted, 1)) ∧
    (∃ t, Driver.run 9 (at0100 .v85 [0x3C, 0x00] []) =
      some (t, .error (.decodeError .illegalOpcode), 2)) ∧
    Driver.run 0 (at0100 .v85 [] []) = some (at0100 .v85 [] [], .budgetExhausted, 0) :=
  ⟨⟨_, rfl⟩, ⟨_, rfl⟩, ⟨_, rfl⟩, rfl⟩

/-- A completed step of either kind, an error and a blocked call, each from a RUNNING machine. -/
theorem witness_driver_step :
    (∃ t, step (at0100 .v85 [0x3C] []) = .next t ∧ t.run = .running ∧
      Driver.step (at0100 .v85 [0x3C] []) = some (t, .running)) ∧
    (∃ t, step (at0100 .v85 [0x76] []) = .next t ∧ t.run = .halted ∧
      Driver.step (at0100 .v85 [0x76] []) = some (t, .halted)) ∧
    (∃ t, illegal.run = .running ∧
      Driver.step illegal = some (t, .error (.decodeError .illegalOperand))) ∧
    ((inputFrom .blocked).run = .running ∧ step (inputFrom .blocked) = .fault .portBlocked ∧
      Driver.step (inputFrom .blocked) = none) :=
  ⟨⟨_, rfl, rfl, rfl⟩, ⟨_, rfl, rfl, rfl⟩, ⟨_, rfl, rfl⟩, rfl, rfl, rfl⟩

end Sys2Proof.Machine
end

section
/-! PROOFS. What instructions and steps do to VARIANT and RUN (00_scope.md R2, 10_state.md R34). -/

namespace Sys2Proof.Machine

/-! ### The two port instructions complete only on an `ok` answer -/

theorem execInAN_next {n : Byte} {s t : State} (h : execInAN n s = .next t) :
    ∃ v, s.portReply n = .ok v ∧
      t = ((s.portCompleted (.input n v)).setReg8 .a v).advance 2 := by
  unfold execInAN at h
  split at h
  case h_1 v hreply => exact ⟨v, hreply, (Host.Outcome.next.inj h).symm⟩
  all_goals cases h

theorem execOutNA_next {n : Byte} {s t : State} (h : execOutNA n s = .next t) :
    ∃ v, s.portReply n = .ok v ∧ t = (s.portCompleted (.output n s.main.a)).advance 2 := by
  unfold execOutNA at h
  split at h
  case h_1 v hreply => exact ⟨v, hreply, (Host.Outcome.next.inj h).symm⟩
  all_goals cases h

/-! ### VARIANT and RUN -/

theorem exec_halt (s : State) :
    exec .halt s = .next (State.advance { s with run := .halted } 1) := rfl

/-- Every shared operation an instruction is made of keeps both fields; only the port instructions
(which may fail) and the conditional transfers have more than one branch to look at. -/
theorem exec_keeps_variant_run_of_ne_halt {i : Instr} {s t : State} (hi : i ≠ .halt)
    (h : exec i s = .next t) : t.variant = s.variant ∧ t.run = s.run := by
  cases i with
  | halt => exact absurd rfl hi
  | inAN n =>
    obtain ⟨v, -, rfl⟩ := execInAN_next h
    simp
  | outNA n =>
    obtain ⟨v, -, rfl⟩ := execOutNA_next h
    simp
  | jpCCNN cc nn | callCCNN cc nn | retCC cc =>
    cases h
    split <;> simp
  | _ =>
    cases h
    simp

theorem exec_variant {i : Instr} {s t : State} (h : exec i s = .next t) :
    t.variant = s.variant := by
  by_cases hi : i = .halt
  · subst hi
    cases h
    rfl
  · exact (exec_keeps_variant_run_of_ne_halt hi h).1

theorem step_variant {s t : State} (h : step s = .next t) : t.variant = s.variant := by
  obtain ⟨-, hs⟩ | ⟨-, reason, -, hs⟩ | ⟨-, i, -, hs⟩ := step_cases s
  · cases hs.symm.trans h
    rfl
  · cases hs.symm.trans h
  · exact exec_variant (hs.symm.trans h)

theorem step_of_halted_eq {s t : State} (hr : s.run = .halted) (h : step s = .next t) : t = s :=
  (Host.Outcome.next.inj ((step_halted hr).symm.trans h)).symm

theorem exec_halted_iff_halt {i : Instr} {s t : State} (hr : s.run = .running)
    (h : exec i s = .next t) : t.run = .halted ↔ i = .halt := by
  constructor
  · intro ht
    by_contra hi
    have hkeep : t.run = s.run := (exec_keeps_variant_run_of_ne_halt hi h).2
    simp [ht, hr] at hkeep
  · rintro rfl
    cases (exec_halt s).symm.trans h
    rfl

/-- Settles O13: no shared operation writes VARIANT or RUN, HALT's arm writes RUN, and a step of a
HALTED machine returns it as it is. -/
theorem onlyHaltStopsTheMachine : Obligations.OnlyHaltStopsTheMachine := by
  refine ⟨fun _ _ => step_variant, fun s t h hr => ?_, fun _ _ _ => exec_halted_iff_halt⟩
  rw [step_of_halted_eq hr h]
  exact hr

end Sys2Proof.Machine
end

section
/-! PROOFS. What every instruction and every step keeps of the state (10_state.md): the registers V85
does not have, the canonical form of memory, the flags and the unnamed bits of F, SP, IX, IY, the
shadow bank and the device side; the 16-bit steps, the shadow exchange and the values at reset. -/

namespace Sys2Proof

/-! ### What decodes is in the variant's table (30_encoding.md R78) -/

theorem Instr.inTable_vz80 (i : Instr) : i.inTable .vz80 = true := by
  cases i <;> rfl

/-- A row of one opcode byte that is marked for V85 builds instructions of V85's table alone. -/
theorem oneByteRows_build_inTable_v85 : ∀ row ∈ oneByteRows, row.inV85 = true → ∀ b0 b1 b2 : Byte,
    (row.build b0 b1 b2).all (Instr.inTable .v85) = true := by
  simp only [oneByteRows, accRows, incArithRows, moveRows, controlRows, List.forall_mem_append,
    List.forall_mem_cons, List.not_mem_nil, false_implies, implies_true, and_true, Bool.false_eq_true,
    Option.all_map, Option.all_bind, Option.all_some, Function.comp_def, Instr.inTable, Option.all_true]

/-- A V85 lookup goes to the rows of one opcode byte alone (R82) and finds one marked for V85. -/
theorem lookup_v85_inTable {b0 b1 b2 : Byte} {i : Instr} (h : lookup .v85 b0 b1 b2 = some i) :
    i.inTable .v85 = true := by
  obtain ⟨row, hrow, hd⟩ := List.exists_of_findSome?_eq_some (l := oneByteRows) h
  unfold Row.decode at hd
  split at hd
  case isTrue hmatch =>
    have hv85 : row.inV85 = true := by simpa using (Bool.and_eq_true_iff.mp hmatch).1
    exact (Option.all_eq_true _ _).mp (oneByteRows_build_inTable_v85 row hrow hv85 b0 b1 b2) i hd
  case isFalse => cases hd

theorem decode_wellFormed {v : Variant} {b0 b1 b2 : Byte} {i : Instr} (h : decode v b0 b1 b2 = .ok i) :
    WellFormed v i := by
  cases v with
  | vz80 => exact i.inTable_vz80
  | v85 =>
    unfold decode at h
    split at h
    case h_1 j hj =>
      cases h
      exact lookup_v85_inTable hj
    case h_2 => cases h

end Sys2Proof

namespace Sys2Proof.Machine

/-! ### A V85 machine with other contents in IX, IY and the shadow bank (R26, R27) -/

section
variable (s : State) (ix iy : Word) (shadow : Bank)

theorem withZ80Registers_self : s.withZ80Registers s.ix s.iy s.shadow = s := rfl

@[simp] theorem cond_withZ80Registers (cc : Cond) :
    (s.withZ80Registers ix iy shadow).cond cc = s.cond cc := by
  cases cc <;> rfl

@[simp] theorem portReply_withZ80Registers (n : Byte) :
    (s.withZ80Registers ix iy shadow).portReply n = s.portReply n := rfl

/-- The meanings of V85's instructions are made of operations that neither read nor write the three:
with the destination register, the branch taken or the device's answer known, both sides are the
same state. -/
theorem exec_withZ80Registers {i : Instr} (hi : WellFormed .v85 i) :
    exec i (s.withZ80Registers ix iy shadow) =
      mapNext (fun t => t.withZ80Registers ix iy shadow) (exec i s) := by
  cases i with
  | addAtXYd | adcAtXYd | subAtXYd | sbcAtXYd | andAtXYd | xorAtXYd | orAtXYd | cpAtXYd | incAtXYd
  | decAtXYd | addXYPP | incXY | decXY | ldAAtBC | ldAAtDE | ldAtBCA | ldAtDEA | ldRAtXYd | ldAtXYdR
  | exsh | ldi | ldd | ldir | lddr | pushXY | popXY => cases hi
  | incR r | decR r | ldRR r _ | ldRAtHL r | ldRN r _ => cases r <;> rfl
  | incSS p | decSS p | ldDDNN p _ => cases p <;> rfl
  | popQQ q => cases q <;> rfl
  | jpCCNN cc nn | callCCNN cc nn | retCC cc =>
    simp only [exec, execJpCCNN, execCallCCNN, execRetCC, mapNext, cond_withZ80Registers]
    split <;> rfl
  | inAN n | outNA n =>
    simp only [exec, execInAN, execOutNA, portReply_withZ80Registers]
    split <;> rfl
  | _ => rfl

theorem step_withZ80Registers (hv : s.variant = .v85) :
    step (s.withZ80Registers ix iy shadow) =
      mapNext (fun t => t.withZ80Registers ix iy shadow) (step s) := by
  obtain ⟨hr, hs⟩ | ⟨hr, reason, hd, hs⟩ | ⟨hr, i, hd, hs⟩ := step_cases s
  · rw [hs, step_halted (s := s.withZ80Registers ix iy shadow) hr]
    rfl
  · rw [hs, step_error (s := s.withZ80Registers ix iy shadow) hr hd]
    rfl
  · have hi : WellFormed .v85 i := by
      rw [decodeAtPc_eq, hv] at hd
      exact decode_wellFormed hd
    rw [hs, step_ok (s := s.withZ80Registers ix iy shadow) hr hd]
    exact exec_withZ80Registers s ix iy shadow hi

end

/-- Settles O14: a V85 step decodes an instruction of V85's table or none, and no meaning of such an
instruction reads or writes the three. -/
theorem v85IgnoresTheZ80Registers : Obligations.V85IgnoresTheZ80Registers :=
  step_withZ80Registers

/-- The frame is the noninterference at the contents the machine has. -/
theorem step_v85_keeps_z80Registers {s t : State} (hv : s.variant = .v85) (h : step s = .next t) :
    t.ix = s.ix ∧ t.iy = s.iy ∧ t.shadow = s.shadow := by
  have hself := step_withZ80Registers s s.ix s.iy s.shadow hv
  rw [withZ80Registers_self, h] at hself
  have ht : t = t.withZ80Registers s.ix s.iy s.shadow := Host.Outcome.next.inj hself
  rw [ht]
  exact ⟨rfl, rfl, rfl⟩

/-! ### The invariant: canonical memory (R50) and the registers V85 lacks -/

theorem exec_wf {i : Instr} {s t : State} (hm : s.mem.wf = true) (h : exec i s = .next t) :
    t.mem.wf = true := by
  cases i with
  | ldAtHLR _ | ldAtHLN _ | ldAtBCA | ldAtDEA | ldAtNNA _ | ldAtXYdR _ _ _ =>
    cases h
    exact write8_wf _ _ hm
  | inAN n =>
    obtain ⟨v, -, rfl⟩ := execInAN_next h
    simp [hm]
  | outNA n =>
    obtain ⟨v, -, rfl⟩ := execOutNA_next h
    simp [hm]
  | jpCCNN cc nn | callCCNN cc nn | retCC cc =>
    cases h
    split <;> simp [hm, callTo_wf]
  | _ =>
    cases h
    simp [hm, write16_wf, push16_wf, callTo_wf, modify8_wf, blockStep_wf, blockRepeat_wf]

theorem step_wf {s t : State} (hm : s.mem.wf = true) (h : step s = .next t) : t.mem.wf = true := by
  obtain ⟨-, hs⟩ | ⟨-, reason, -, hs⟩ | ⟨-, i, -, hs⟩ := step_cases s
  · cases hs.symm.trans h
    exact hm
  · cases hs.symm.trans h
  · exact exec_wf hm (hs.symm.trans h)

/-- Settles O11: memory by the write operations' own laws, the registers V85 lacks by the
noninterference of O14. -/
theorem invariantKeptByEveryStep : Obligations.InvariantKeptByEveryStep := by
  rintro s t ⟨hm, hz⟩ h
  refine ⟨step_wf hm h, fun htv => ?_⟩
  have hv : s.variant = .v85 := (step_variant h).symm.trans htv
  obtain ⟨hix, hiy, hshadow⟩ := step_v85_keeps_z80Registers hv h
  rw [hix, hiy, hshadow]
  exact hz hv

/-- Settles O12: with no image, memory is the empty list and every register is 0. -/
theorem invariantHoldsAtReset : Obligations.InvariantHoldsAtReset :=
  ⟨⟨rfl, fun _ => ⟨rfl, rfl, rfl⟩⟩, fun _ _ => ⟨rfl, fun _ => ⟨rfl, rfl, rfl⟩⟩⟩

/-! ### F: the flags an instruction does not write, and the unnamed bits (R30 to R32, R114) -/

/-- Settles O38: both columns of the layout are the same. -/
theorem flagLayoutInBothVariants : Obligations.FlagLayoutInBothVariants := by
  intro s
  unfold State.flag
  cases s.variant <;> exact ⟨rfl, rfl, rfl, rfl, rfl⟩

theorem inc8_get_of_ne (v : Variant) (x : Byte) {fl : Flag} (hfl : (fl != .c) = false) :
    (inc8 v x).2.get fl = none := by
  obtain rfl : fl = .c := by simpa using hfl
  rfl

theorem dec8_get_of_ne (v : Variant) (x : Byte) {fl : Flag} (hfl : (fl != .c) = false) :
    (dec8 v x).2.get fl = none := by
  obtain rfl : fl = .c := by simpa using hfl
  rfl

theorem daa8_get_of_ne (a : Byte) (h c : Bool) {fl : Flag} (hfl : (fl != .h) = false) :
    (daa8 a h c).2.get fl = none := by
  obtain rfl : fl = .h := by simpa using hfl
  rfl

theorem add16_get_of_unwritten (v : Variant) (a b : Word) {fl : Flag}
    (hfl : (fl == .c || (fl == .h && v == .vz80)) = false) : (add16 v a b).2.get fl = none := by
  obtain ⟨hs, hz, hp, hh⟩ := add16_unwritten v a b
  cases fl with
  | s => exact hs
  | z => exact hz
  | p => exact hp
  | c => cases hfl
  | h =>
    cases v with
    | v85 => exact hh
    | vz80 => cases hfl

/-- F of `t` is F of `s` with a flag set written that has no entry for a flag `i` is not documented
to write. -/
def WritesDocumentedFlags (i : Instr) (s t : State) : Prop :=
  ∃ fs : FlagSet, t.main.f = writeFlags s.variant fs s.main.f ∧
    ∀ fl, mayWriteFlag s.variant i fl = false → fs.get fl = none

section
variable {i : Instr} {s t : State} (n : Nat)

theorem writesDocumentedFlags_of_eq (h : t.main.f = s.main.f) : WritesDocumentedFlags i s t :=
  ⟨{}, h, fun fl _ => by cases fl <;> rfl⟩

theorem writesDocumentedFlags_setFlags {fs : FlagSet} (hv : t.variant = s.variant)
    (hf : t.main.f = s.main.f) (hfs : ∀ fl, mayWriteFlag s.variant i fl = false → fs.get fl = none) :
    WritesDocumentedFlags i s ((t.setFlags fs).advance n) :=
  ⟨fs, by simp [hv, hf], hfs⟩

theorem writesDocumentedFlags_accumulate {r : Byte × FlagSet}
    (hfs : ∀ fl, mayWriteFlag s.variant i fl = false → r.2.get fl = none) :
    WritesDocumentedFlags i s ((s.accumulate r).advance n) :=
  writesDocumentedFlags_setFlags n (setReg8_variant s .a r.1) (setReg8_main_f s .a r.1) hfs

theorem writesDocumentedFlags_modify8 {addr : Word} {f : Byte → Byte × FlagSet}
    (hfs : ∀ fl, mayWriteFlag s.variant i fl = false → (f (s.read8 addr)).2.get fl = none) :
    WritesDocumentedFlags i s ((s.modify8 addr f).advance n) :=
  writesDocumentedFlags_setFlags n rfl rfl hfs

theorem writesDocumentedFlags_modifyReg8 {r : Reg8} {f : Byte → Byte × FlagSet}
    (hfs : ∀ fl, mayWriteFlag s.variant i fl = false → (f (s.reg8 r)).2.get fl = none) :
    WritesDocumentedFlags i s ((s.modifyReg8 r f).advance n) :=
  writesDocumentedFlags_setFlags n (setReg8_variant _ _ _) (setReg8_main_f _ _ _) hfs

end

/-- Only POP AF and EXSH replace F whole; every other instruction writes flags through the ALU's flag
set or leaves F alone. -/
theorem exec_writesDocumentedFlags {i : Instr} {s t : State} (hi : mayWriteUnnamedBits i = false)
    (h : exec i s = .next t) : WritesDocumentedFlags i s t := by
  cases i with
  | popAF | exsh => cases hi
  | addR _ | addAtHL | addN _ | addAtXYd _ _ | adcR _ | adcAtHL | adcN _ | adcAtXYd _ _
  | subR _ | subAtHL | subN _ | subAtXYd _ _ | sbcR _ | sbcAtHL | sbcN _ | sbcAtXYd _ _
  | andR _ | andAtHL | andN _ | andAtXYd _ _ | xorR _ | xorAtHL | xorN _ | xorAtXYd _ _
  | orR _ | orAtHL | orN _ | orAtXYd _ _ =>
    cases h
    exact writesDocumentedFlags_accumulate _ fun _ hfl => nomatch hfl
  | cpR _ | cpAtHL | cpN _ | cpAtXYd _ _ =>
    cases h
    exact writesDocumentedFlags_setFlags _ rfl rfl fun _ hfl => nomatch hfl
  | incR _ =>
    cases h
    exact writesDocumentedFlags_modifyReg8 _ fun _ hfl => inc8_get_of_ne _ _ hfl
  | decR _ =>
    cases h
    exact writesDocumentedFlags_modifyReg8 _ fun _ hfl => dec8_get_of_ne _ _ hfl
  | incAtHL | incAtXYd _ _ =>
    cases h
    exact writesDocumentedFlags_modify8 _ fun _ hfl => inc8_get_of_ne _ _ hfl
  | decAtHL | decAtXYd _ _ =>
    cases h
    exact writesDocumentedFlags_modify8 _ fun _ hfl => dec8_get_of_ne _ _ hfl
  | addHLSS p =>
    cases h
    exact writesDocumentedFlags_setFlags _ rfl rfl fun _ hfl => add16_get_of_unwritten _ _ _ hfl
  | addXYPP x p =>
    cases h
    exact writesDocumentedFlags_setFlags _ (by simp) (by simp) fun _ hfl =>
      add16_get_of_unwritten _ _ _ hfl
  | daa =>
    cases h
    exact writesDocumentedFlags_accumulate _ fun _ hfl => daa8_get_of_ne _ _ _ hfl
  | inAN n =>
    obtain ⟨v, -, rfl⟩ := execInAN_next h
    exact writesDocumentedFlags_of_eq (by simp)
  | outNA n =>
    obtain ⟨v, -, rfl⟩ := execOutNA_next h
    exact writesDocumentedFlags_of_eq (by simp)
  | jpCCNN cc nn | callCCNN cc nn | retCC cc =>
    cases h
    exact writesDocumentedFlags_of_eq (by split <;> simp)
  | _ =>
    cases h
    exact writesDocumentedFlags_of_eq (by simp)

/-- POP AF and EXSH, which write the unnamed bits, write every flag as well. -/
theorem mayWriteUnnamedBits_of_mayWriteFlag {i : Instr} {v : Variant} {fl : Flag}
    (h : mayWriteFlag v i fl = false) : mayWriteUnnamedBits i = false := by
  cases hw : mayWriteUnnamedBits i with
  | false => rfl
  | true =>
    have hwhole : i = .popAF ∨ i = .exsh := by simpa [mayWriteUnnamedBits] using hw
    rcases hwhole with rfl | rfl <;> cases h

/-- Settles O16: the flag set an instruction writes has no entry for the flag. -/
theorem undocumentedFlagsStay : Obligations.UndocumentedFlagsStay := by
  intro i s t fl h hfl
  obtain ⟨fs, hf, hnone⟩ := exec_writesDocumentedFlags (mayWriteUnnamedBits_of_mayWriteFlag hfl) h
  simp [State.flag, exec_variant h, hf, hnone fl hfl]

/-- Settles O17: writing a flag set never touches a bit that names no flag. -/
theorem unnamedBitsAreStorage : Obligations.UnnamedBitsAreStorage := by
  intro i s t h hi k hk
  obtain ⟨fs, hf, -⟩ := exec_writesDocumentedFlags hi h
  rw [hf, writeFlags_unnamed _ _ _ hk]

/-! ### SP, IX, IY, the shadow bank and the device side (R24, R26, R27, R60) -/

theorem setPair_sp_of_ne (s : State) {p : Pair} (w : Word) (h : p ≠ .sp) :
    (s.setPair p w).sp = s.sp := by
  cases p with
  | sp => exact absurd rfl h
  | _ => rfl

theorem index_congr {s t : State} (hx : t.ix = s.ix) (hy : t.iy = s.iy) (x : IndexReg) :
    t.index x = s.index x := by
  cases x with
  | ix => exact hx
  | iy => exact hy

theorem exec_sp {i : Instr} {s t : State} (hi : mayWriteSP i = false) (h : exec i s = .next t) :
    t.sp = s.sp := by
  cases i with
  | callNN | callCCNN | ret | retCC | pushQQ | pushAF | pushXY | popQQ | popAF | popXY => cases hi
  | incSS p | decSS p | ldDDNN p nn =>
    cases h
    exact setPair_sp_of_ne _ _ (by simpa [mayWriteSP] using hi)
  | inAN n =>
    obtain ⟨v, -, rfl⟩ := execInAN_next h
    simp
  | outNA n =>
    obtain ⟨v, -, rfl⟩ := execOutNA_next h
    simp
  | jpCCNN cc nn =>
    cases h
    split <;> simp
  | _ =>
    cases h
    simp

theorem exec_index {i : Instr} {s t : State} {x : IndexReg} (hi : mayWriteIndex i x = false)
    (h : exec i s = .next t) : t.index x = s.index x := by
  cases i with
  | addXYPP y p | incXY y | decXY y | popXY y =>
    cases h
    exact index_setIndex_of_ne _ _ (by simpa [mayWriteIndex] using hi)
  | inAN n =>
    obtain ⟨v, -, rfl⟩ := execInAN_next h
    exact index_congr (by simp) (by simp) x
  | outNA n =>
    obtain ⟨v, -, rfl⟩ := execOutNA_next h
    exact index_congr (by simp) (by simp) x
  | jpCCNN cc nn | callCCNN cc nn | retCC cc =>
    cases h
    split <;> exact index_congr (by simp) (by simp) x
  | _ =>
    cases h
    exact index_congr (by simp) (by simp) x

theorem exec_shadow {i : Instr} {s t : State} (hi : i ≠ .exsh) (h : exec i s = .next t) :
    t.shadow = s.shadow := by
  cases i with
  | exsh => exact absurd rfl hi
  | inAN n =>
    obtain ⟨v, -, rfl⟩ := execInAN_next h
    simp
  | outNA n =>
    obtain ⟨v, -, rfl⟩ := execOutNA_next h
    simp
  | jpCCNN cc nn | callCCNN cc nn | retCC cc =>
    cases h
    split <;> simp
  | _ =>
    cases h
    simp

theorem exec_device {i : Instr} {s t : State} (hi : callsDevice i = false) (h : exec i s = .next t) :
    t.portReplies = s.portReplies ∧ t.portCalls = s.portCalls ∧ t.portTrace = s.portTrace := by
  cases i with
  | inAN | outNA => cases hi
  | jpCCNN cc nn | callCCNN cc nn | retCC cc =>
    cases h
    split <;> simp
  | _ =>
    cases h
    simp

/-- Settles O19: one frame for each of SP, the index registers, the shadow bank and the device side. -/
theorem pointersShadowAndPortsStay : Obligations.PointersShadowAndPortsStay :=
  fun _ _ _ h => ⟨fun hi => exec_sp hi h, fun _ hi => exec_index hi h, fun hi => exec_shadow hi h,
    fun hi => exec_device hi h⟩

/-! ### 16-bit steps (R23) -/

theorem toNat_move_up (w : Word) : (Direction.up.move w).toNat = (w.toNat + 1) % 65536 :=
  BitVec.toNat_add w 1

theorem toNat_move_down (w : Word) : (Direction.down.move w).toNat = (w.toNat + 65535) % 65536 := by
  unfold Direction.move
  bv_omega

@[simp] theorem pair_advance (s : State) (n : Nat) (p : Pair) : (s.advance n).pair p = s.pair p := by
  cases p <;> rfl

@[simp] theorem index_advance (s : State) (n : Nat) (x : IndexReg) :
    (s.advance n).index x = s.index x := by
  cases x <;> rfl

/-- Writing a pair or SP changes neither A nor F. -/
theorem setPair_advance_frame (s : State) (p : Pair) (w : Word) (n : Nat) :
    (s.setPair p w).advance n = { s with
      main := { ((s.setPair p w).advance n).main with a := s.main.a, f := s.main.f }
      sp := ((s.setPair p w).advance n).sp
      pc := s.pc + BitVec.ofNat 16 n } := by
  cases p <;> rfl

theorem setIndex_advance_frame (s : State) (x : IndexReg) (w : Word) (n : Nat) :
    (s.setIndex x w).advance n = { s.setIndex x (((s.setIndex x w).advance n).index x) with
      pc := s.pc + BitVec.ofNat 16 n } := by
  cases x <;> rfl

/-- Settles O26: every 16-bit step is `Direction.move`, and the operations around it write neither F
nor another register. -/
theorem pairStepsWrapWithoutFlags : Obligations.PairStepsWrapWithoutFlags := by
  refine fun s => ⟨fun p => ⟨_, _, rfl, rfl, ?_, ?_, fun q hq => ⟨?_, ?_⟩,
      setPair_advance_frame s p _ 1, setPair_advance_frame s p _ 1⟩,
    fun x => ⟨_, _, rfl, rfl, ?_, ?_,
      setIndex_advance_frame s x _ 2, setIndex_advance_frame s x _ 2⟩,
    fun w => ⟨toNat_move_up w, toNat_move_down w⟩,
    fun dir => ⟨blockStep_hl s dir, blockStep_de s dir, blockStep_bc s dir, blockStep_main_f s dir⟩,
    fun _ => ⟨rfl, rfl⟩, rfl, rfl⟩
  · rw [pair_advance, pair_setPair_self]
    exact toNat_move_up (s.pair p)
  · rw [pair_advance, pair_setPair_self]
    exact toNat_move_down (s.pair p)
  · rw [pair_advance, pair_setPair_of_ne s _ hq]
  · rw [pair_advance, pair_setPair_of_ne s _ hq]
  · rw [index_advance, index_setIndex_self]
    exact toNat_move_up (s.index x)
  · rw [index_advance, index_setIndex_self]
    exact toNat_move_down (s.index x)

/-! ### The shadow exchange (R205) and the values at reset (R38, R310, R311) -/

/-- Settles O36: the exchange is its own inverse, and PC moves by 1 twice. -/
theorem shadowExchangeSwapsBothBanks : Obligations.ShadowExchangeSwapsBothBanks := by
  refine fun s => ⟨_, _, rfl, rfl, rfl, ?_⟩
  have hpc : s.pc + 1 + 1 = s.pc + 2 := add_one_add_one s.pc
  rw [← hpc]
  rfl

/-- Settles O58: both states are written out field by field. -/
theorem resetZeroesTheRegisters : Obligations.ResetZeroesTheRegisters := by
  intro s v replies image
  refine ⟨?_, rfl, rfl, rfl, rfl, rfl⟩
  rintro t (rfl | rfl) <;> exact ⟨rfl, rfl, rfl, rfl, rfl, rfl, rfl⟩

end Sys2Proof.Machine
end

section
/-! PROOFS. Memory and the ports (20_memory.md): byte and word accesses, the canonical form, a loaded
image, what a completed instruction leaves in memory, the 16-bit loads and the store, and the answers
of the device model to IN and OUT. -/

namespace Sys2Proof.Machine

/-! ### Byte and word accesses (R51 to R54) -/

theorem ne_add_one (a : Word) : a ≠ a + 1 := by bv_omega

/-- A cell after `write16`. -/
theorem write16_read8 (s : State) (addr w a : Word) :
    (s.write16 addr w).read8 a =
      if a = addr + 1 then high8 w else if a = addr then low8 w else s.read8 a := by
  unfold State.write16
  by_cases hhigh : a = addr + 1
  · simp [hhigh]
  · rw [read8_write8_of_ne _ _ hhigh, if_neg hhigh]
    by_cases hlow : a = addr
    · simp [hlow]
    · rw [read8_write8_of_ne _ _ hlow, if_neg hlow]

theorem write16_read8_low (s : State) (addr w : Word) : (s.write16 addr w).read8 addr = low8 w := by
  rw [write16_read8, if_neg (ne_add_one addr), if_pos rfl]

theorem write16_read8_high (s : State) (addr w : Word) :
    (s.write16 addr w).read8 (addr + 1) = high8 w := by
  rw [write16_read8, if_pos rfl]

theorem write16_read8_of_ne (s : State) {addr a : Word} (w : Word) (hlow : a ≠ addr)
    (hhigh : a ≠ addr + 1) : (s.write16 addr w).read8 a = s.read8 a := by
  rw [write16_read8, if_neg hhigh, if_neg hlow]

theorem read16_write16_self (s : State) (addr w : Word) : (s.write16 addr w).read16 addr = w := by
  rw [State.read16, write16_read8_low, write16_read8_high, joinBytes_high8_low8]

/-- Settles O56: the laws of `write8`, and those of `write16`, which is two of them at different
addresses. -/
theorem memoryPrimitivesAreByteAccesses : Obligations.MemoryPrimitivesAreByteAccesses :=
  fun s addr _ v w =>
    ⟨⟨read8_write8_self s addr v, read8_write8_of_ne s v⟩,
      ⟨rfl, write16_read8_low s addr w, write16_read8_high s addr w, write16_read8_of_ne s w,
        read16_write16_self s addr w⟩,
      rfl, rfl⟩

/-! ### The canonical form is canonical (R50) -/

theorem Memory.readAt_cons_self (c : Host.Cell) (m : Memory) : Memory.readAt (c :: m) c.1 = c.2 :=
  if_pos rfl

theorem Memory.readAt_cons_of_ne {c : Host.Cell} (m : Memory) {a : Nat} (h : c.1 ≠ a) :
    Memory.readAt (c :: m) a = m.readAt a :=
  if_neg h

/-- Below the addresses a canonical memory may list, every cell holds the unlisted byte. -/
theorem Memory.readAt_of_lt {lo a : Nat} {m : Memory} (h : Memory.wfFrom lo m = true) (ha : a < lo) :
    m.readAt a = Memory.unlistedByte := by
  induction m generalizing lo with
  | nil => rfl
  | cons c m ih =>
    obtain ⟨hlo, -, -, htail⟩ := (Memory.wfFrom_cons _ _ _).mp h
    rw [Memory.readAt_cons_of_ne m (by omega)]
    exact ih htail (by omega)

/-- The first cell of a canonical memory does not hold the unlisted byte, so it cannot lie below the
bound of a canonical memory that reads alike. -/
theorem Memory.le_of_readAt_eq {lo lo' : Nat} {c : Host.Cell} {m m' : Memory}
    (h : Memory.wfFrom lo (c :: m) = true) (h' : Memory.wfFrom lo' m' = true)
    (halike : ∀ a, a < 65536 → Memory.readAt (c :: m) a = m'.readAt a) : lo' ≤ c.1 := by
  obtain ⟨-, hc, hv, -⟩ := (Memory.wfFrom_cons _ _ _).mp h
  by_contra hlt
  have hread : c.2 = Memory.unlistedByte := by
    rw [← Memory.readAt_cons_self c m, halike c.1 hc, Memory.readAt_of_lt h' (by omega)]
  exact hv hread

theorem Memory.eq_of_readAt_eq {lo : Nat} {m m' : Memory} (h : Memory.wfFrom lo m = true)
    (h' : Memory.wfFrom lo m' = true) (halike : ∀ a, a < 65536 → m.readAt a = m'.readAt a) :
    m = m' := by
  induction m generalizing lo m' with
  | nil =>
    cases m' with
    | nil => rfl
    | cons c' m' =>
      have hc' : c'.1 < 65536 := ((Memory.wfFrom_cons _ _ _).mp h').2.1
      have hle : 65536 ≤ c'.1 :=
        Memory.le_of_readAt_eq h' (m' := []) rfl fun a ha => (halike a ha).symm
      omega
  | cons c m ih =>
    obtain ⟨-, hc, hv, htail⟩ := (Memory.wfFrom_cons _ _ _).mp h
    cases m' with
    | nil =>
      have hle : 65536 ≤ c.1 := Memory.le_of_readAt_eq h (m' := []) rfl halike
      omega
    | cons c' m' =>
      obtain ⟨-, hc', hv', htail'⟩ := (Memory.wfFrom_cons _ _ _).mp h'
      have haddr : c.1 = c'.1 := le_antisymm
        (Memory.le_of_readAt_eq h' ((Memory.wfFrom_cons _ _ _).mpr ⟨le_rfl, hc, hv, htail⟩)
          fun a ha => (halike a ha).symm)
        (Memory.le_of_readAt_eq h ((Memory.wfFrom_cons _ _ _).mpr ⟨le_rfl, hc', hv', htail'⟩) halike)
      have hbyte : c.2 = c'.2 := by
        rw [← Memory.readAt_cons_self c m, halike c.1 hc, haddr, Memory.readAt_cons_self]
      obtain rfl : c = c' := Prod.ext haddr hbyte
      have htails : ∀ a, a < 65536 → Memory.readAt m a = Memory.readAt m' a := by
        intro a ha
        by_cases hca : c.1 = a
        · rw [Memory.readAt_of_lt htail (by omega), Memory.readAt_of_lt htail' (by omega)]
        · rw [← Memory.readAt_cons_of_ne m hca, ← Memory.readAt_cons_of_ne m' hca, halike a ha]
      rw [ih htail htail' htails]

/-- Settles O57, by induction on the two lists: reading alike gives the same first cell, and tails
that read alike. -/
theorem canonicalMemoriesAreEqualWhenAlike : Obligations.CanonicalMemoriesAreEqualWhenAlike :=
  fun _ _ => Memory.eq_of_readAt_eq

/-! ### A loaded image (R67) -/

namespace Driver

theorem loadImage_cons (p : Nat × Byte) (image : List (Nat × Byte)) (m : Memory) :
    loadImage (p :: image) m = loadImage image (m.writeAt (p.1 % 65536) p.2) := rfl

theorem loadImage_readAt_of_notMem {image : List (Nat × Byte)} {a : Nat} (m : Memory)
    (h : a ∉ image.map fun p => p.1 % 65536) : (loadImage image m).readAt a = m.readAt a := by
  induction image generalizing m with
  | nil => rfl
  | cons p image ih =>
    obtain ⟨hne, hrest⟩ := not_or.mp (mt List.mem_cons.mpr h)
    rw [loadImage_cons, ih _ hrest, Memory.readAt_writeAt_of_ne _ _ hne]

theorem loadImage_readAt_of_mem {image : List (Nat × Byte)} {p : Nat × Byte} (m : Memory)
    (hnodup : (image.map fun p => p.1 % 65536).Nodup) (hp : p ∈ image) :
    (loadImage image m).readAt (p.1 % 65536) = p.2 := by
  induction image generalizing m with
  | nil => cases hp
  | cons q image ih =>
    obtain ⟨hq, hrest⟩ := List.nodup_cons.mp hnodup
    rw [loadImage_cons]
    obtain rfl | hp := List.mem_cons.mp hp
    · rw [loadImage_readAt_of_notMem _ hq, Memory.readAt_writeAt_self]
    · exact ih _ hrest hp

theorem loadImage_wf (image : List (Nat × Byte)) {m : Memory} (h : m.wf = true) :
    (loadImage image m).wf = true := by
  induction image generalizing m with
  | nil => exact h
  | cons p image ih => exact ih (Memory.writeAt_wf p.2 h (Nat.mod_lt p.1 (by decide)))

theorem construct_read8 (v : Variant) (replies : List PortReply) (image : List (Nat × Byte))
    (a : Word) : (construct v replies image).read8 a = (loadImage image []).readAt a.toNat := rfl

end Driver

/-- Settles O59: a pair's byte is written once and by no later pair, and each write keeps the
canonical form. -/
theorem loadedImageReadsBack : Obligations.LoadedImageReadsBack := by
  intro v replies image hnodup
  refine ⟨fun p hp => ?_, fun a ha => ?_, Driver.loadImage_wf image rfl, fun _ => ⟨rfl, rfl, rfl⟩⟩
  · rw [Driver.construct_read8, BitVec.toNat_ofNat]
    exact Driver.loadImage_readAt_of_mem [] hnodup hp
  · rw [Driver.construct_read8]
    exact Driver.loadImage_readAt_of_notMem [] ha

/-! ### Memory outside the addresses an instruction stores to (R50, R58) -/

@[simp] theorem read8_advance (s : State) (n : Nat) (a : Word) :
    (s.advance n).read8 a = s.read8 a := rfl

theorem modify8_read8_of_ne (s : State) {addr a : Word} (f : Byte → Byte × FlagSet) (h : a ≠ addr) :
    (s.modify8 addr f).read8 a = s.read8 a := by
  rw [modify8_read8, if_neg h]

theorem blockStep_read8_of_ne (s : State) (dir : Direction) {a : Word} (h : a ≠ s.de) :
    (s.blockStep dir).read8 a = s.read8 a := by
  rw [blockStep_read8, if_neg h]

theorem push16_read8_of_ne (s : State) (w : Word) {a : Word} (h : ¬(a = s.sp - 1 ∨ a = s.sp - 2)) :
    (s.push16 w).read8 a = s.read8 a := by
  obtain ⟨h1, h2⟩ := not_or.mp h
  rw [push16_read8, if_neg h2, if_neg h1]

theorem callTo_read8_of_ne (s : State) (target : Word) {a : Word}
    (h : ¬(a = s.sp - 1 ∨ a = s.sp - 2)) : (s.callTo target).read8 a = s.read8 a :=
  push16_read8_of_ne s (s.next 3) h

theorem move_up_iterate (k : Nat) (w : Word) :
    Direction.up.move^[k] w = w + BitVec.ofNat 16 k := by
  induction k with
  | zero => simp
  | succ k ih =>
    rw [Function.iterate_succ_apply', ih, BitVec.ofNat_add]
    exact BitVec.add_assoc ..

theorem move_down_iterate (k : Nat) (w : Word) :
    Direction.down.move^[k] w = w - BitVec.ofNat 16 k := by
  induction k with
  | zero => simp
  | succ k ih =>
    rw [Function.iterate_succ_apply', ih, BitVec.ofNat_add]
    exact BitVec.sub_sub ..

/-- The loop's rounds store to DE, moved once, twice and so on. -/
theorem blockLoop_read8_of_ne (dir : Direction) {k : Nat} {s : State} {a : Word}
    (h : ∀ j, j < k → a ≠ dir.move^[j] s.de) : (State.blockLoop dir k s).read8 a = s.read8 a := by
  induction k generalizing s with
  | zero => rfl
  | succ k ih =>
    rw [blockLoop_succ]
    split
    · rfl
    · have hfirst : a ≠ s.de := h 0 (Nat.succ_pos k)
      have hrest : ∀ j, j < k → a ≠ dir.move^[j] (s.blockStep dir).de := by
        intro j hj
        rw [blockStep_de, ← Function.iterate_succ_apply]
        exact h (j + 1) (Nat.succ_lt_succ hj)
      rw [ih hrest, blockStep_read8_of_ne s dir hfirst]

theorem blockRepeat_read8_of_ne (dir : Direction) {s : State} {a : Word}
    (h : ¬∃ k, k < s.bc.toNat ∧ a = dir.move^[k] s.de) : (s.blockRepeat dir).read8 a = s.read8 a :=
  blockLoop_read8_of_ne dir fun k hk e => h ⟨k, hk, e⟩

/-- Each storing instruction is one memory operation, whose own law names the cells it changes; no
other instruction writes memory. -/
theorem exec_read8_of_not_storesTo {i : Instr} {s t : State} {a : Word} (h : exec i s = .next t)
    (ha : ¬StoresTo s i a) : t.read8 a = s.read8 a := by
  cases i with
  | ldAtHLR _ | ldAtHLN _ | ldAtBCA | ldAtDEA | ldAtNNA _ | ldAtXYdR _ _ _ =>
    cases h
    exact read8_write8_of_ne s _ ha
  | incAtHL | decAtHL | incAtXYd _ _ | decAtXYd _ _ =>
    cases h
    exact modify8_read8_of_ne s _ ha
  | ldAtNNHL nn =>
    cases h
    obtain ⟨hlow, hhigh⟩ := not_or.mp ha
    exact write16_read8_of_ne s s.hl hlow hhigh
  | pushQQ _ | pushAF | pushXY _ =>
    cases h
    exact push16_read8_of_ne s _ ha
  | callNN nn =>
    cases h
    exact callTo_read8_of_ne s nn ha
  | callCCNN cc nn =>
    cases h
    split
    case isTrue hcc => exact callTo_read8_of_ne s nn fun hstack => ha ⟨hcc, hstack⟩
    case isFalse => rfl
  | ldi =>
    cases h
    exact blockStep_read8_of_ne s .up ha
  | ldd =>
    cases h
    exact blockStep_read8_of_ne s .down ha
  | ldir =>
    cases h
    exact blockRepeat_read8_of_ne .up (by simpa only [StoresTo, move_up_iterate] using ha)
  | lddr =>
    cases h
    exact blockRepeat_read8_of_ne .down (by simpa only [StoresTo, move_down_iterate] using ha)
  | inAN n =>
    obtain ⟨v, -, rfl⟩ := execInAN_next h
    exact read8_congr (by simp) a
  | outNA n =>
    obtain ⟨v, -, rfl⟩ := execOutNA_next h
    exact read8_congr (by simp) a
  | jpCCNN cc nn | retCC cc =>
    cases h
    split <;> exact read8_congr (by simp) a
  | _ =>
    cases h
    exact read8_congr (by simp) a

/-- Settles O20, by the case split over the instructions. -/
theorem memoryOutsideTheStoreStays : Obligations.MemoryOutsideTheStoreStays :=
  fun _ _ _ _ => exec_read8_of_not_storesTo

/-! ### The 16-bit loads and the store (R196, R199, R200) -/

theorem setHL_read16 (s : State) (addr : Word) :
    s.setHL (s.read16 addr) = { s with main.l := s.read8 addr, main.h := s.read8 (addr + 1) } := by
  rw [State.read16, State.setHL, high8_joinBytes, low8_joinBytes]

/-- Settles O35: the loads write a pair, and the store is `write16` of HL, whose halves are L and H. -/
theorem wordLoadsAndStoreComplete : Obligations.WordLoadsAndStoreComplete := by
  refine fun s nn => ⟨fun p => ⟨_, rfl, ?_, ?_⟩, ⟨_, rfl, ?_⟩, ⟨_, rfl, ?_, ?_, ?_, rfl⟩⟩
  · rw [pair_advance, pair_setPair_self]
  · cases p <;> rfl
  · rw [setHL_read16]
    rfl
  · rw [read8_advance, write16_read8_low, State.hl, low8_joinBytes]
  · rw [read8_advance, write16_read8_high, State.hl, high8_joinBytes]
  · exact fun a hlow hhigh => write16_read8_of_ne s s.hl hlow hhigh

/-! ### What IN and OUT do with each answer of the device model (R60, R61, R270, R271, R285) -/

theorem portCompleted_cons {s : State} {r : PortReply} {rest : List PortReply}
    (h : s.portReplies = r :: rest) (e : PortEvent) :
    s.portCompleted e = { s with
      portReplies := rest, portCalls := s.portCalls + 1, portTrace := e :: s.portTrace } := by
  simp [State.portCompleted, State.portAnswered, h]

theorem portCompleted_nil {s : State} (h : s.portReplies = []) (e : PortEvent) :
    s.portCompleted e = { s with
      portCalls := s.portCalls + 1, portTrace := e :: s.portTrace } := by
  simp [State.portCompleted, State.portAnswered, h]

section
variable {s : State} {n : Byte}

theorem execInAN_ok {v : Byte} (h : s.portReply n = .ok v) :
    execInAN n s = .next (((s.portCompleted (.input n v)).setReg8 .a v).advance 2) := by
  simp [execInAN, h]

theorem execInAN_failed {e : Nat} (h : s.portReply n = .failed e) :
    execInAN n s = .fault (.portFailure e) := by
  simp [execInAN, h, raiseError]

theorem execInAN_blocked (h : s.portReply n = .blocked) : execInAN n s = .fault .portBlocked := by
  simp [execInAN, h, raiseError]

theorem execOutNA_ok {v : Byte} (h : s.portReply n = .ok v) :
    execOutNA n s = .next ((s.portCompleted (.output n s.main.a)).advance 2) := by
  simp [execOutNA, h]

theorem execOutNA_failed {e : Nat} (h : s.portReply n = .failed e) :
    execOutNA n s = .fault (.portFailure e) := by
  simp [execOutNA, h, raiseError]

theorem execOutNA_blocked (h : s.portReply n = .blocked) : execOutNA n s = .fault .portBlocked := by
  simp [execOutNA, h, raiseError]

end

/-- Settles O53: one answer decides the branch, and a listed one is used up. -/
theorem portInputReadsTheDevice : Obligations.PortInputReadsTheDevice := by
  intro s n
  refine ⟨fun v rest h => ?_, fun h => ⟨Config.freePortByte s.portCalls n, ?_⟩,
    fun _ _ h => execInAN_failed (portReply_cons s n h),
    fun _ h => execInAN_blocked (portReply_cons s n h)⟩
  · refine (execInAN_ok (portReply_cons s n h)).trans ?_
    rw [portCompleted_cons h]
    rfl
  · refine (execInAN_ok (portReply_nil s n h)).trans ?_
    rw [portCompleted_nil h]
    rfl

/-- Settles O54: one answer decides the branch, and a listed one is used up. -/
theorem portOutputWritesTheDevice : Obligations.PortOutputWritesTheDevice := by
  intro s n
  refine ⟨fun v rest h => ?_, fun h => ?_, fun _ _ h => execOutNA_failed (portReply_cons s n h),
    fun _ h => execOutNA_blocked (portReply_cons s n h)⟩
  · refine (execOutNA_ok (portReply_cons s n h)).trans ?_
    rw [portCompleted_cons h]
    rfl
  · refine (execOutNA_ok (portReply_nil s n h)).trans ?_
    rw [portCompleted_nil h]
    rfl

end Sys2Proof.Machine
end

section
/-! PROOFS. The decoder and the encoder are inverse to each other (30_encoding.md R70 to R88).
`lookupBytes_encode` goes from an instruction to its bytes and back; `lookup_spelledBy` says that the
bytes a row matches are the encoding of what it builds. -/

namespace Sys2Proof
open Machine

/-! ### From an instruction to its bytes and back -/

theorem decode_eq_ok {v : Variant} {b0 b1 b2 : Byte} {i : Instr} :
    decode v b0 b1 b2 = .ok i ↔ lookup v b0 b1 b2 = some i := by
  cases h : lookup v b0 b1 b2 <;> simp [decode, h]

/-- After 0xDD, 0xFD or 0xED, `b0 : b1` is looked up in the prefixed rows (R82, R94). -/
theorem lookup_of_isPrefixByte {b0 : Byte} (h : isPrefixByte b0 = true) (b1 b2 : Byte) :
    lookup .vz80 b0 b1 b2 =
      twoByteRows.findSome? (Row.decode .vz80 (joinBytes b0 b1).toNat b0 b1 b2) := by
  simp [lookup, h, toNat_joinBytes, Nat.mul_comm]

theorem IndexReg.isPrefixByte_firstByte (x : IndexReg) : isPrefixByte x.firstByte = true := by
  cases x <;> rfl

/-- `lookup` of the first three bytes of a list. -/
def lookupBytes (v : Variant) : List Byte → Option Instr
  | b0 :: b1 :: b2 :: _ => lookup v b0 b1 b2
  | _ => none

theorem lookupBytes_of_isPrefixByte {b0 : Byte} (h : isPrefixByte b0 = true) (b1 b2 : Byte)
    (rest : List Byte) : lookupBytes .vz80 (b0 :: b1 :: b2 :: rest) =
      twoByteRows.findSome? (Row.decode .vz80 (joinBytes b0 b1).toNat b0 b1 b2) :=
  lookup_of_isPrefixByte h b1 b2

/-- The opcode byte is known once the register, pair and condition operands are, and the opcode byte
alone selects the row; immediate bytes are handed on as they stand, a 16-bit one as its two halves. -/
theorem lookupBytes_encode {v : Variant} {i : Instr} (hi : WellFormed v i) (x y : Byte) :
    lookupBytes v (encode i ++ [x, y]) = some i := by
  cases i
  -- unprefixed, in both variants: no operand in the opcode byte
  case addAtHL | addN | adcAtHL | adcN | subAtHL | subN | sbcAtHL | sbcN | andAtHL | andN | xorAtHL
    | xorN | orAtHL | orN | cpAtHL | cpN | incAtHL | decAtHL | cpl | daa | ldAtHLN | ret | halt
    | pushAF | popAF | inAN | outNA => cases v <;> rfl
  case ldAAtNN nn | ldAtNNA nn | ldHLAtNN nn | ldAtNNHL nn | jpNN nn | callNN nn =>
    conv_rhs => rw [← joinBytes_high8_low8 nn]
    cases v <;> rfl
  -- a register, a pair or a condition in the opcode byte
  case addR r | adcR r | subR r | sbcR r | andR r | xorR r | orR r | cpR r | incR r | decR r
    | ldRAtHL r | ldAtHLR r | ldRN r _ => cases v <;> cases r <;> rfl
  case ldRR rd rs => cases v <;> cases rd <;> cases rs <;> rfl
  case addHLSS p | incSS p | decSS p => cases v <;> cases p <;> rfl
  case pushQQ q | popQQ q => cases v <;> cases q <;> rfl
  case retCC cc => cases v <;> cases cc <;> rfl
  case ldDDNN p nn =>
    conv_rhs => rw [← joinBytes_high8_low8 nn]
    cases v <;> cases p <;> rfl
  case jpCCNN cc nn | callCCNN cc nn =>
    conv_rhs => rw [← joinBytes_high8_low8 nn]
    cases v <;> cases cc <;> rfl
  -- VZ80 only
  all_goals obtain rfl : v = .vz80 := of_decide_eq_true hi
  case ldAAtBC | ldAAtDE | ldAtBCA | ldAtDEA | exsh => rfl
  case ldi | ldd | ldir | lddr => exact (lookupBytes_of_isPrefixByte rfl ..).trans rfl
  all_goals refine (lookupBytes_of_isPrefixByte (IndexReg.isPrefixByte_firstByte _) ..).trans ?_
  case addXYPP k p => cases k <;> cases p <;> rfl
  case ldRAtXYd r k _ | ldAtXYdR k _ r => cases k <;> cases r <;> rfl
  case addAtXYd k _ | adcAtXYd k _ | subAtXYd k _ | sbcAtXYd k _ | andAtXYd k _ | xorAtXYd k _
    | orAtXYd k _ | cpAtXYd k _ | incAtXYd k _ | decAtXYd k _ | incXY k | decXY k | pushXY k
    | popXY k => cases k <;> rfl

/-- Settles O1: the encoded bytes are looked up, and the lookup finds the instruction. -/
theorem encodedInstructionDecodesBack : Obligations.EncodedInstructionDecodesBack := by
  intro v i x y b0 b1 b2 rest hi hbytes
  have hlookup : lookupBytes v (b0 :: b1 :: b2 :: rest) = some i :=
    hbytes ▸ lookupBytes_encode hi x y
  exact decode_eq_ok.mpr hlookup

/-! ### A bit field put back in its place -/

theorem ofNat_bitField (b : Byte) (lo w : Nat) :
    BitVec.ofNat 8 (bitField b lo w) = b >>> lo &&& BitVec.ofNat 8 (2 ^ w - 1) := by
  rw [bitField, ← Nat.and_two_pow_sub_one_eq_mod, BitVec.ofNat_and, ← BitVec.toNat_ushiftRight,
    BitVec.ofNat_toNat, BitVec.setWidth_eq]

theorem ofNat_bitField_shiftLeft (b : Byte) (lo w : Nat) :
    BitVec.ofNat 8 (bitField b lo w) <<< lo = b &&& BitVec.ofNat 8 (2 ^ w - 1) <<< lo := by
  rw [ofNat_bitField]
  refine BitVec.eq_of_getLsbD_eq fun i hi => ?_
  by_cases hlo : i < lo
  · simp [hlo]
  · simp [hlo, hi, Nat.add_sub_cancel' (Nat.le_of_not_lt hlo)]

theorem ofNat_bitField_low (b : Byte) : BitVec.ofNat 8 (bitField b 0 3) = b &&& 0x07#8 :=
  ofNat_bitField b 0 3

theorem fieldY_ofNat_bitField (b : Byte) :
    fieldY (BitVec.ofNat 8 (bitField b 3 3)) = b &&& 0x38#8 :=
  ofNat_bitField_shiftLeft b 3 3

theorem fieldP_ofNat_bitField (b : Byte) :
    fieldP (BitVec.ofNat 8 (bitField b 4 2)) = b &&& 0x30#8 :=
  ofNat_bitField_shiftLeft b 4 2

theorem ofNat_bitField_index (b : Byte) : BitVec.ofNat 8 (bitField b 5 1) <<< 5 = b &&& 0x20#8 :=
  ofNat_bitField_shiftLeft b 5 1

theorem bitField_lt_two (b : Byte) (lo : Nat) : bitField b lo 1 < 2 := Nat.mod_lt _ (by decide)
theorem bitField_lt_four (b : Byte) (lo : Nat) : bitField b lo 2 < 4 := Nat.mod_lt _ (by decide)
theorem bitField_lt_eight (b : Byte) (lo : Nat) : bitField b lo 3 < 8 := Nat.mod_lt _ (by decide)

/-! ### The code of an operand read from its code (R73 to R77) -/

theorem Reg8.ofCode_eq_some {k : Nat} (hk : k < 8) {r : Reg8} :
    Reg8.ofCode k = some r ↔ r.code = BitVec.ofNat 8 k := by
  interval_cases k <;> cases r <;> decide

theorem StackPair.ofCode_eq_some {k : Nat} (hk : k < 4) {q : StackPair} :
    StackPair.ofCode k = some q ↔ q.code = BitVec.ofNat 8 k := by
  interval_cases k <;> cases q <;> decide

theorem Pair.code_ofCode {k : Nat} (hk : k < 4) : (Pair.ofCode k).code = BitVec.ofNat 8 k := by
  interval_cases k <;> rfl

theorem IndexPair.code_ofCode {k : Nat} (hk : k < 4) :
    (IndexPair.ofCode k).code = BitVec.ofNat 8 k := by
  interval_cases k <;> rfl

theorem Cond.code_ofCode {k : Nat} (hk : k < 8) : (Cond.ofCode k).code = BitVec.ofNat 8 k := by
  interval_cases k <;> rfl

theorem IndexReg.firstByte_ofCode {k : Nat} (hk : k < 2) :
    (IndexReg.ofCode k).firstByte = 0xDD#8 ||| BitVec.ofNat 8 k <<< 5 := by
  interval_cases k <;> rfl

/-! ### From bytes to the instruction and back -/

/-- The bytes begin with the encoding of the instruction. -/
def Instr.spelledBy (bytes : List Byte) (i : Instr) : Bool := encode i == bytes.take i.length

/-- What an unprefixed row builds is encoded with the row's pattern in the bits under its mask and the
bits of the byte itself in the others, which are its operand fields. -/
theorem oneByteRows_build_spelledBy : ∀ row ∈ oneByteRows, ∀ b0 b1 b2 : Byte,
    (row.build b0 b1 b2).all
      (Instr.spelledBy [.ofNat 8 row.pattern ||| (b0 &&& ~~~.ofNat 8 row.mask), b1, b2]) := by
  simp only [oneByteRows, accRows, incArithRows, moveRows, controlRows, List.forall_mem_append,
    List.forall_mem_cons, List.not_mem_nil, false_implies, implies_true, and_true]
  simp only [Option.all_map, Option.all_bind, Option.all_some, Function.comp_def,
    Option.all_eq_true, Reg8.ofCode_eq_some, StackPair.ofCode_eq_some, bitField_lt_eight,
    bitField_lt_four]
  simp +contextual only [Instr.spelledBy, encode, Instr.length, List.take, low8_joinBytes,
    high8_joinBytes, Pair.code_ofCode, Cond.code_ofCode, bitField_lt_eight, bitField_lt_four,
    ofNat_bitField_low, fieldP_ofNat_bitField, fieldY_ofNat_bitField, BitVec.ofNat_eq_ofNat,
    BitVec.reduceNot, BitVec.reduceOr, BitVec.or_assoc, ← BitVec.and_or_distrib_left,
    BitVec.and_zero, BitVec.or_zero, beq_self_eq_true, implies_true, and_self]

/-- The same for a prefixed row, whose pattern and mask hold two bytes. -/
theorem twoByteRows_build_spelledBy : ∀ row ∈ twoByteRows, ∀ b0 b1 b2 : Byte,
    (row.build b0 b1 b2).all
      (Instr.spelledBy [.ofNat 8 (row.pattern / 256) ||| (b0 &&& ~~~.ofNat 8 (row.mask / 256)),
        .ofNat 8 row.pattern ||| (b1 &&& ~~~.ofNat 8 row.mask), b2]) := by
  simp only [twoByteRows, indexedRows, blockRows, List.forall_mem_append, List.forall_mem_cons,
    List.not_mem_nil, false_implies, implies_true, and_true]
  simp only [Option.all_map, Option.all_some, Option.all_eq_true,
    Reg8.ofCode_eq_some, bitField_lt_eight]
  simp +contextual only [Instr.spelledBy, encode, Instr.length, List.take, IndexReg.firstByte_ofCode,
    IndexPair.code_ofCode, bitField_lt_two, bitField_lt_four, ofNat_bitField_low,
    fieldP_ofNat_bitField, fieldY_ofNat_bitField, ofNat_bitField_index, Nat.reduceDiv,
    BitVec.ofNat_eq_ofNat, BitVec.reduceOfNat, BitVec.reduceNot, BitVec.and_zero, BitVec.or_zero,
    beq_self_eq_true, implies_true, and_self]

theorem Row.decode_eq_some {v : Variant} {number : Nat} {b0 b1 b2 : Byte} {row : Row} {i : Instr} :
    row.decode v number b0 b1 b2 = some i ↔ (row.inV85 = true ∨ v = .vz80) ∧
      number &&& row.mask = row.pattern ∧ row.build b0 b1 b2 = some i := by
  simp [Row.decode, and_assoc]

/-- A byte that has a pattern under a mask is the pattern and its own bits outside the mask. -/
theorem pattern_or_and_not_mask {b mask pattern : Byte} (h : b &&& mask = pattern) :
    pattern ||| (b &&& ~~~mask) = b := by
  rw [← h, ← BitVec.and_or_distrib_left, BitVec.or_not_self, BitVec.and_allOnes]

theorem ofNat_and_of_and {n mask pattern : Nat} (h : n &&& mask = pattern) :
    BitVec.ofNat 8 n &&& BitVec.ofNat 8 mask = BitVec.ofNat 8 pattern := by
  rw [← BitVec.ofNat_and, h]

theorem div_and_div_of_and {n mask pattern : Nat} (h : n &&& mask = pattern) :
    n / 256 &&& mask / 256 = pattern / 256 := by
  rw [← h]
  exact (Nat.and_div_two_pow (n := 8)).symm

theorem ofNat_pair_low (b0 b1 : Byte) : BitVec.ofNat 8 (b0.toNat * 256 + b1.toNat) = b1 := by
  bv_omega

theorem pair_div (b0 b1 : Byte) : (b0.toNat * 256 + b1.toNat) / 256 = b0.toNat := by
  have := b1.isLt
  omega

theorem oneByteRows_decode_spelledBy {v : Variant} {row : Row} (hrow : row ∈ oneByteRows)
    {b0 b1 b2 : Byte} {i : Instr} (h : row.decode v b0.toNat b0 b1 b2 = some i) :
    i.spelledBy [b0, b1, b2] = true := by
  obtain ⟨-, hmatch, hbuild⟩ := Row.decode_eq_some.mp h
  have hb0 := ofNat_and_of_and hmatch
  rw [BitVec.ofNat_toNat, BitVec.setWidth_eq] at hb0
  rw [← pattern_or_and_not_mask hb0]
  exact (Option.all_eq_true _ _).mp (oneByteRows_build_spelledBy row hrow b0 b1 b2) i hbuild

theorem twoByteRows_decode_spelledBy {v : Variant} {row : Row} (hrow : row ∈ twoByteRows)
    {b0 b1 b2 : Byte} {i : Instr}
    (h : row.decode v (b0.toNat * 256 + b1.toNat) b0 b1 b2 = some i) :
    i.spelledBy [b0, b1, b2] = true := by
  obtain ⟨-, hmatch, hbuild⟩ := Row.decode_eq_some.mp h
  have hb0 := ofNat_and_of_and (div_and_div_of_and hmatch)
  have hb1 := ofNat_and_of_and hmatch
  rw [pair_div, BitVec.ofNat_toNat, BitVec.setWidth_eq] at hb0
  rw [ofNat_pair_low] at hb1
  rw [← pattern_or_and_not_mask hb0, ← pattern_or_and_not_mask hb1]
  exact (Option.all_eq_true _ _).mp (twoByteRows_build_spelledBy row hrow b0 b1 b2) i hbuild

theorem lookup_spelledBy {v : Variant} {b0 b1 b2 : Byte} {i : Instr}
    (h : lookup v b0 b1 b2 = some i) : i.spelledBy [b0, b1, b2] = true := by
  unfold lookup at h
  split at h
  · obtain ⟨row, hrow, hd⟩ := List.exists_of_findSome?_eq_some h
    exact twoByteRows_decode_spelledBy hrow hd
  · obtain ⟨row, hrow, hd⟩ := List.exists_of_findSome?_eq_some h
    exact oneByteRows_decode_spelledBy hrow hd

theorem Instr.length_pos_le_three (i : Instr) : 1 ≤ i.length ∧ i.length ≤ 3 := by
  cases i <;> simp [Instr.length]

/-- Settles O2: the row that was found is of the variant's table, and its match gives the bytes. -/
theorem decodedBytesAreTheEncoding : Obligations.DecodedBytesAreTheEncoding := fun _ _ _ _ i h =>
  ⟨decode_wellFormed h, eq_of_beq (lookup_spelledBy (decode_eq_ok.mp h)), i.length_pos_le_three⟩

/-- Settles O3: the decoder is run on each word. -/
theorem specWordsDecode : Obligations.SpecWordsDecode :=
  ⟨rfl, rfl, rfl, rfl, rfl, rfl, rfl, rfl, rfl, rfl, rfl, rfl, rfl, rfl, rfl⟩

end Sys2Proof
end

section
/-! PROOFS. Which bytes decode (30_encoding.md R82 to R88): each table is gone through once, byte by
byte, counting the rows that match. That a count is at most 1 is R82; that it is 0 is a decode error. -/

namespace Sys2Proof
open Machine

/-! ### The number of rows that match -/

/-- How many rows of a table match the bytes, the constraints applied. -/
def matchCount (v : Variant) (rows : List Row) (number : Nat) (b0 b1 b2 : Byte) : Nat :=
  rows.countP fun row => (row.decode v number b0 b1 b2).isSome

theorem length_filterMap_decode (v : Variant) (rows : List Row) (number : Nat) (b0 b1 b2 : Byte) :
    (rows.filterMap (Row.decode v number b0 b1 b2)).length = matchCount v rows number b0 b1 b2 :=
  List.length_filterMap_eq_countP

/-- A first match is found exactly where a row matches. -/
theorem isSome_findSome?_decode_eq_false {v : Variant} {rows : List Row} {number : Nat}
    {b0 b1 b2 : Byte} :
    (rows.findSome? (Row.decode v number b0 b1 b2)).isSome = false ↔
      matchCount v rows number b0 b1 b2 = 0 := by
  simp [matchCount]

/-- Operand bytes do not decide which rows match. -/
theorem matchCount_congr {v : Variant} {rows : List Row} {number : Nat} {b0 b1 b2 b1' b2' : Byte}
    (h : ∀ row ∈ rows, (row.build b0 b1 b2).isSome = (row.build b0 b1' b2').isSome) :
    matchCount v rows number b0 b1 b2 = matchCount v rows number b0 b1' b2' := by
  refine List.countP_congr fun row hrow => ?_
  simp only [Row.decode]
  split
  · rw [h row hrow]
  · rfl

/-- VZ80 has every row of V85. -/
theorem matchCount_le_vz80 (v : Variant) (rows : List Row) (number : Nat) (b0 b1 b2 : Byte) :
    matchCount v rows number b0 b1 b2 ≤ matchCount .vz80 rows number b0 b1 b2 := by
  refine List.countP_mono_left fun row _ h => ?_
  obtain ⟨i, hi⟩ := Option.isSome_iff_exists.mp h
  obtain ⟨-, hmatch⟩ := Row.decode_eq_some.mp hi
  exact Option.isSome_iff_exists.mpr ⟨i, Row.decode_eq_some.mpr ⟨.inr rfl, hmatch⟩⟩

/-! ### The first bytes of unprefixed rows (R83, R84) -/

/-- The first bytes without a row in V85. -/
def unlistedV85 : List Byte :=
  [0x00, 0x02, 0x07, 0x08, 0x0A, 0x0F, 0x10, 0x12, 0x17, 0x18, 0x1A, 0x1F, 0x20, 0x28, 0x30, 0x37,
    0x38, 0x3F, 0xC7, 0xCB, 0xCF, 0xD7, 0xD9, 0xDD, 0xDF, 0xE3, 0xE7, 0xE9, 0xEB, 0xED, 0xEF, 0xF3,
    0xF7, 0xF9, 0xFB, 0xFD, 0xFF]

/-- The first bytes that are in no row of VZ80. -/
def unlistedVZ80 : List Byte :=
  [0x00, 0x07, 0x08, 0x0F, 0x10, 0x17, 0x18, 0x1F, 0x20, 0x28, 0x30, 0x37, 0x38, 0x3F, 0xC7, 0xCB,
    0xCF, 0xD7, 0xDF, 0xE3, 0xE7, 0xE9, 0xEB, 0xEF, 0xF3, 0xF7, 0xF9, 0xFB, 0xFF]

/-- The bytes that select the prefixed rows in VZ80 (R77). -/
def prefixBytes : List Byte := [0xDD, 0xFD, 0xED]

theorem isPrefixByte_eq_true {b : Byte} : isPrefixByte b = true ↔ b ∈ prefixBytes := by
  simp [isPrefixByte, prefixBytes, or_assoc]

theorem matchCount_oneByteRows_v85_zero : ∀ b0 : Byte,
    matchCount .v85 oneByteRows b0.toNat b0 0 0 = if b0 ∈ unlistedV85 then 0 else 1 := by
  decide +kernel

theorem matchCount_oneByteRows_vz80_zero : ∀ b0 : Byte,
    matchCount .vz80 oneByteRows b0.toNat b0 0 0 =
      if b0 ∈ unlistedVZ80 ++ prefixBytes then 0 else 1 := by
  decide +kernel

theorem matchCount_oneByteRows_v85 (b0 b1 b2 : Byte) :
    matchCount .v85 oneByteRows b0.toNat b0 b1 b2 = if b0 ∈ unlistedV85 then 0 else 1 :=
  (matchCount_congr fun row hrow => oneByteRows_build row hrow b0 b1 b2 0 0).trans
    (matchCount_oneByteRows_v85_zero b0)

theorem matchCount_oneByteRows_vz80 (b0 b1 b2 : Byte) :
    matchCount .vz80 oneByteRows b0.toNat b0 b1 b2 =
      if b0 ∈ unlistedVZ80 ++ prefixBytes then 0 else 1 :=
  (matchCount_congr fun row hrow => oneByteRows_build row hrow b0 b1 b2 0 0).trans
    (matchCount_oneByteRows_vz80_zero b0)

/-! ### The second bytes of prefixed rows (R85, R86) -/

/-- The bytes that may follow 0xDD or 0xFD. -/
def indexedSecondBytes : List Byte :=
  [0x09, 0x19, 0x29, 0x39, 0x23, 0x2B, 0x34, 0x35, 0x46, 0x4E, 0x56, 0x5E, 0x66, 0x6E, 0x7E, 0x70,
    0x71, 0x72, 0x73, 0x74, 0x75, 0x77, 0x86, 0x8E, 0x96, 0x9E, 0xA6, 0xAE, 0xB6, 0xBE, 0xE1, 0xE5]

/-- The bytes that may follow 0xED. -/
def blockSecondBytes : List Byte := [0xA0, 0xA8, 0xB0, 0xB8]

/-- The bytes that may follow a byte of `prefixBytes`. -/
def secondBytes (b0 : Byte) : List Byte := if b0 = 0xED then blockSecondBytes else indexedSecondBytes

theorem matchCount_twoByteRows_zero : ∀ b0 ∈ prefixBytes, ∀ b1 : Byte,
    matchCount .vz80 twoByteRows (b0.toNat * 256 + b1.toNat) b0 b1 0 =
      if b1 ∈ secondBytes b0 then 1 else 0 := by
  decide +kernel

theorem matchCount_twoByteRows {b0 : Byte} (h : b0 ∈ prefixBytes) (b1 b2 : Byte) :
    matchCount .vz80 twoByteRows (b0.toNat * 256 + b1.toNat) b0 b1 b2 =
      if b1 ∈ secondBytes b0 then 1 else 0 :=
  (matchCount_congr fun row hrow => twoByteRows_build row hrow b0 b1 b2 0).trans
    (matchCount_twoByteRows_zero b0 h b1)

/-- Every prefixed row matches only after a byte of `prefixBytes`. -/
theorem mem_prefixBytes_of_match : ∀ row ∈ twoByteRows, ∀ b0 : Byte,
    b0.toNat &&& row.mask / 256 = row.pattern / 256 → b0 ∈ prefixBytes := by
  decide +kernel

theorem matchCount_twoByteRows_of_notMem {b0 : Byte} (h : b0 ∉ prefixBytes) (v : Variant)
    (b1 b2 : Byte) : matchCount v twoByteRows (b0.toNat * 256 + b1.toNat) b0 b1 b2 = 0 := by
  refine List.countP_eq_zero.mpr fun row hrow hsome => h ?_
  obtain ⟨i, hi⟩ := Option.isSome_iff_exists.mp hsome
  obtain ⟨-, hmatch, -⟩ := Row.decode_eq_some.mp hi
  have hhigh := div_and_div_of_and hmatch
  rw [pair_div] at hhigh
  exact mem_prefixBytes_of_match row hrow b0 hhigh

/-- Settles O6: a count is 0 or 1 in VZ80's tables, and V85 has no rows of its own. -/
theorem opcodeRowsNeverOverlap : Obligations.OpcodeRowsNeverOverlap := by
  intro v b0 b1 b2
  rw [length_filterMap_decode, length_filterMap_decode]
  constructor
  · refine (matchCount_le_vz80 ..).trans ?_
    rw [matchCount_oneByteRows_vz80]
    split <;> decide
  · by_cases h : b0 ∈ prefixBytes
    · refine (matchCount_le_vz80 ..).trans ?_
      rw [matchCount_twoByteRows h]
      split <;> decide
    · rw [matchCount_twoByteRows_of_notMem h]
      decide

/-! ### The two decode errors (R87, R88) -/

theorem lookup_v85_isSome_eq_false {b0 b1 b2 : Byte} :
    (lookup .v85 b0 b1 b2).isSome = false ↔ b0 ∈ unlistedV85 := by
  have hlookup : lookup .v85 b0 b1 b2 = oneByteRows.findSome? (Row.decode .v85 b0.toNat b0 b1 b2) :=
    rfl
  rw [hlookup, isSome_findSome?_decode_eq_false, matchCount_oneByteRows_v85]
  simp

theorem lookup_vz80_isSome_eq_false_of_notMem {b0 b1 b2 : Byte} (h : b0 ∉ prefixBytes) :
    (lookup .vz80 b0 b1 b2).isSome = false ↔ b0 ∈ unlistedVZ80 := by
  have hb0 : isPrefixByte b0 = false := Bool.eq_false_iff.mpr (mt isPrefixByte_eq_true.mp h)
  rw [lookup, if_neg (by simp [hb0]), isSome_findSome?_decode_eq_false, matchCount_oneByteRows_vz80]
  simp [h]

theorem lookup_vz80_isSome_eq_false_of_mem {b0 b1 b2 : Byte} (h : b0 ∈ prefixBytes) :
    (lookup .vz80 b0 b1 b2).isSome = false ↔ b1 ∉ secondBytes b0 := by
  have hb0 : isPrefixByte b0 = true := isPrefixByte_eq_true.mpr h
  rw [lookup, if_pos (by simp [hb0]), isSome_findSome?_decode_eq_false, matchCount_twoByteRows h]
  simp

theorem isMemoryToMemoryMove_eq_true {v : Variant} {b0 b1 : Byte} :
    isMemoryToMemoryMove v b0 b1 = true ↔ v = .vz80 ∧ (b0 = 0xDD ∨ b0 = 0xFD) ∧ b1 = 0x76 := by
  simp [isMemoryToMemoryMove, and_assoc]

theorem decode_eq_illegalOperand {v : Variant} {b0 b1 b2 : Byte} :
    decode v b0 b1 b2 = .error .illegalOperand ↔
      (lookup v b0 b1 b2).isSome = false ∧ isMemoryToMemoryMove v b0 b1 = true := by
  rw [decode_eq_error]
  cases isMemoryToMemoryMove v b0 b1 <;> simp

theorem decode_eq_illegalOpcode {v : Variant} {b0 b1 b2 : Byte} :
    decode v b0 b1 b2 = .error .illegalOpcode ↔
      (lookup v b0 b1 b2).isSome = false ∧ ¬ isMemoryToMemoryMove v b0 b1 = true := by
  rw [decode_eq_error]
  cases isMemoryToMemoryMove v b0 b1 <;> simp

theorem mem_indexPrefix {b0 : Byte} (h : b0 = 0xDD ∨ b0 = 0xFD) :
    b0 ∈ prefixBytes ∧ secondBytes b0 = indexedSecondBytes := by
  obtain rfl | rfl := h <;> decide

/-- Settles O4: 0x76 is none of the bytes that may follow 0xDD or 0xFD, so nothing is found there. -/
theorem illegalOperandIsExactlyTwoBytePairs : Obligations.IllegalOperandIsExactlyTwoBytePairs := by
  intro v b0 b1 b2
  rw [decode_eq_illegalOperand, isMemoryToMemoryMove_eq_true]
  refine and_iff_right_of_imp ?_
  rintro ⟨rfl, hb0, rfl⟩
  obtain ⟨hprefix, hsecond⟩ := mem_indexPrefix hb0
  rw [lookup_vz80_isSome_eq_false_of_mem hprefix, hsecond]
  decide

/-- Settles O5: one clause for each table, where the lookup finds nothing. -/
theorem illegalOpcodeIsExactlyTheUnlistedBytes :
    Obligations.IllegalOpcodeIsExactlyTheUnlistedBytes := by
  refine ⟨fun b0 b1 b2 => ?_, fun b0 b1 b2 h => ?_, fun b0 b1 b2 h => ?_, fun b1 b2 => ?_⟩
  · rw [decode_eq_illegalOpcode, lookup_v85_isSome_eq_false]
    exact and_iff_left Bool.false_ne_true
  · rw [decode_eq_illegalOpcode, lookup_vz80_isSome_eq_false_of_notMem h, isMemoryToMemoryMove_eq_true]
    refine and_iff_left fun ⟨_, hb0, _⟩ => h (mem_indexPrefix hb0).1
  · have hb0 : b0 = 0xDD ∨ b0 = 0xFD := by simpa using h
    obtain ⟨hprefix, hsecond⟩ := mem_indexPrefix hb0
    rw [decode_eq_illegalOpcode, lookup_vz80_isSome_eq_false_of_mem hprefix, hsecond,
      isMemoryToMemoryMove_eq_true, and_comm]
    simp only [hb0, true_and]
    rfl
  · rw [decode_eq_illegalOpcode, lookup_vz80_isSome_eq_false_of_mem (by decide)]
    exact and_iff_left Bool.false_ne_true

end Sys2Proof
end

section
/-! PROOFS. The indexed address and the conditions (30_encoding.md R76, R80; 42_moves_addressing.md
R184; 43_dispatch_control.md R224). -/

namespace Sys2Proof.Machine

theorem toNat_displacement (d : Byte) : ((displacement d).toNat : Int) = d.toInt % 65536 := by
  rw [displacement, BitVec.signExtend, BitVec.toNat_ofInt]
  omega

/-- Settles O33: sign extension keeps the displacement's value modulo 65,536. -/
theorem indexedAddressIsSigned : Obligations.IndexedAddressIsSigned := by
  intro s x d
  constructor
  · have hd := toNat_displacement d
    rw [State.indexedAddr, BitVec.toNat_add]
    omega
  · have hd := BitVec.toInt_eq_toNat_cond d
    omega

/-- Settles O37: the even codes negate the flag of the odd ones. -/
theorem conditionsTestTheirFlag : Obligations.ConditionsTestTheirFlag := fun _ =>
  ⟨(Bool.not_eq_true' _).to_iff, .rfl, (Bool.not_eq_true' _).to_iff, .rfl,
    (Bool.not_eq_true' _).to_iff, .rfl, (Bool.not_eq_true' _).to_iff, .rfl⟩

end Sys2Proof.Machine
end

section
/-! PROOFS. The Flag/ALU unit in the instructions that use it (40_alu_primitives.md R100 to R114,
41_alu_instructions.md): what a written flag set means for F, once, and from it the accumulator
operations, INC and DEC, the 16-bit additions, CPL and DAA; then what two of them do in a row. -/

namespace Sys2Proof.Machine

/-! ### F after an instruction that writes a flag set (R114) -/

/-- `t` has the flags of `fs` written into the F of `s`. -/
structure WritesFlags (s t : State) (fs : FlagSet) : Prop where
  variant_eq : t.variant = s.variant
  f_eq : t.main.f = writeFlags s.variant fs s.main.f

/-- A bit of F changes only where a flag at its place is given. -/
theorem getLsbD_writeFlags_of_unwritten {v : Variant} {fs : FlagSet} {k : Nat} (f : Byte)
    (h : ∀ fl, flagPos v fl = k → fs.get fl = none) :
    (writeFlags v fs f).getLsbD k = f.getLsbD k := by
  have hwrite : ∀ (fl : Flag) (g : Byte),
      (writeFlag v fl (fs.get fl) g).getLsbD k = g.getLsbD k := by
    intro fl g
    rw [getLsbD_writeFlag]
    split
    case isTrue hk => rw [h fl hk.symm, Option.getD_none]
    case isFalse => rfl
  exact (hwrite .c _).trans <| (hwrite .p _).trans <| (hwrite .h _).trans <|
    (hwrite .z _).trans (hwrite .s f)

namespace WritesFlags

variable {s t : State} {fs : FlagSet}

theorem accumulate_advance (s : State) (r : Byte × FlagSet) (n : Nat) :
    WritesFlags s ((s.accumulate r).advance n) r.2 := ⟨rfl, rfl⟩

theorem setFlags_advance (s : State) (fs : FlagSet) (n : Nat) :
    WritesFlags s ((s.setFlags fs).advance n) fs := ⟨rfl, rfl⟩

theorem modify8_advance (s : State) (addr : Word) (f : Byte → Byte × FlagSet) (n : Nat) :
    WritesFlags s ((s.modify8 addr f).advance n) (f (s.read8 addr)).2 := ⟨rfl, rfl⟩

theorem modifyReg8_advance (s : State) (r : Reg8) (f : Byte → Byte × FlagSet) (n : Nat) :
    WritesFlags s ((s.modifyReg8 r f).advance n) (f (s.reg8 r)).2 := by
  cases r <;> exact ⟨rfl, rfl⟩

theorem flag_eq (h : WritesFlags s t fs) (fl : Flag) : t.flag fl = (fs.get fl).getD (s.flag fl) := by
  rw [State.flag, h.variant_eq, h.f_eq, getFlag_writeFlags, State.flag]

theorem flag_of_some (h : WritesFlags s t fs) {fl : Flag} {b : Bool} (hb : fs.get fl = some b) :
    t.flag fl = b := by
  rw [h.flag_eq, hb, Option.getD_some]

theorem flag_of_none (h : WritesFlags s t fs) {fl : Flag} (hb : fs.get fl = none) :
    t.flag fl = s.flag fl := by
  rw [h.flag_eq, hb, Option.getD_none]

theorem flag_iff (h : WritesFlags s t fs) {fl : Flag} {p : Prop} [Decidable p]
    (hp : fs.get fl = some (decide p)) : t.flag fl = true ↔ p := by
  rw [h.flag_of_some hp, decide_eq_true_iff]

theorem signZeroOf (h : WritesFlags s t fs) {res : Byte} (hs : fs.s = some (res.getLsbD 7))
    (hz : fs.z = some (res == 0)) : SignZeroOf s t res := by
  refine ⟨h.flag_of_some hs, ?_, fun k hk => ?_⟩
  · rw [h.flag_of_some (fl := .z) hz, beq_iff_eq]
  · rw [h.f_eq, writeFlags_unnamed _ _ _ hk]

theorem flag_p_iff_evenParity (h : WritesFlags s t fs) {res : Byte}
    (hp : fs.p = some (parity8 res)) : t.flag .p = true ↔ EvenParity res := by
  rw [h.flag_of_some (fl := .p) hp, parity8_iff]

theorem flag_p_eq (h : WritesFlags s t fs) {ovf : Bool} {res : Byte}
    (hp : fs.p = some (parityOverflow s.variant ovf res)) :
    t.flag .p = parityOverflow t.variant ovf res := by
  rw [h.flag_of_some (fl := .p) hp, h.variant_eq]

theorem arithmeticP (h : WritesFlags s t fs) {ovf : Bool} {res : Byte} {value : Int}
    (hp : fs.p = some (parityOverflow s.variant ovf res))
    (hovf : ovf = true ↔ ¬ FitsSigned8 value) : ArithmeticP t res value := by
  rw [ArithmeticP, h.flag_p_eq hp]
  cases t.variant with
  | v85 => exact parity8_iff res
  | vz80 => exact hovf

end WritesFlags

/-! ### ADD and ADC (R104, R120 to R127) -/

theorem onlyAccumulatorChanges_accumulate (s : State) (r : Byte × FlagSet) (n : Nat) :
    OnlyAccumulatorChanges s ((s.accumulate r).advance n) n := rfl

theorem adds_of_exec {i : Instr} {s : State} {v : Byte} {cin : Bool}
    (h : exec i s = .next ((s.accumulate (add8 s.variant s.main.a v cin)).advance i.length)) :
    Adds i s v cin := by
  have hw := WritesFlags.accumulate_advance s (add8 s.variant s.main.a v cin) i.length
  exact ⟨_, h, onlyAccumulatorChanges_accumulate _ _ _, toNat_add8 s.variant _ _ _,
    hw.flag_iff (add8_c _ _ _ _), hw.flag_iff (add8_h _ _ _ _),
    hw.signZeroOf (add8_s _ _ _ _) (add8_z _ _ _ _),
    hw.arithmeticP (add8_p _ _ _ _) (overflowAdd_add8 _ _ _ _)⟩

/-- Settles O21: each form accumulates `add8` of A, its operand and its carry. -/
theorem addAndAdcCompute : Obligations.AddAndAdcCompute := fun _ =>
  ⟨fun _ => adds_of_exec rfl, adds_of_exec rfl, fun _ => adds_of_exec rfl,
    fun _ _ => adds_of_exec rfl, fun _ => adds_of_exec rfl, adds_of_exec rfl,
    fun _ => adds_of_exec rfl, fun _ _ => adds_of_exec rfl⟩

/-! ### SUB, SBC and CP (R105, R106, R128 to R135, R148 to R151) -/

theorem WritesFlags.differenceFlags {s t : State} {a v : Byte} {bin : Bool}
    (h : WritesFlags s t (sub8 s.variant a v bin).2) :
    DifferenceFlags s t a v bin (sub8 s.variant a v bin).1 :=
  ⟨h.flag_iff (sub8_c _ _ _ _), h.flag_iff (sub8_h _ _ _ _),
    h.signZeroOf (sub8_s _ _ _ _) (sub8_z _ _ _ _),
    h.arithmeticP (sub8_p _ _ _ _) (overflowSub_sub8 _ _ _ _)⟩

theorem subtracts_of_exec {i : Instr} {s : State} {v : Byte} {bin : Bool}
    (h : exec i s = .next ((s.accumulate (sub8 s.variant s.main.a v bin)).advance i.length)) :
    Subtracts i s v bin :=
  ⟨_, h, onlyAccumulatorChanges_accumulate _ _ _, toNat_sub8 s.variant _ _ _,
    (WritesFlags.accumulate_advance _ _ _).differenceFlags⟩

theorem compares_of_exec {i : Instr} {s : State} {v : Byte}
    (h : exec i s = .next ((s.setFlags (cp8 s.variant s.main.a v)).advance i.length)) :
    Compares i s v := by
  refine ⟨_, (sub8 s.variant s.main.a v false).1, h, rfl, ?_,
    (WritesFlags.setFlags_advance _ _ _).differenceFlags⟩
  have hdiff := toNat_sub8 s.variant s.main.a v false
  simpa using hdiff

/-- Settles O22: SUB and SBC accumulate `sub8` of A, the operand and the borrow; CP writes its flags
alone. -/
theorem subSbcAndCpCompute : Obligations.SubSbcAndCpCompute := fun _ =>
  ⟨⟨fun _ => subtracts_of_exec rfl, subtracts_of_exec rfl, fun _ => subtracts_of_exec rfl,
      fun _ _ => subtracts_of_exec rfl⟩,
    ⟨fun _ => subtracts_of_exec rfl, subtracts_of_exec rfl, fun _ => subtracts_of_exec rfl,
      fun _ _ => subtracts_of_exec rfl⟩,
    ⟨fun _ => compares_of_exec rfl, compares_of_exec rfl, fun _ => compares_of_exec rfl,
      fun _ _ => compares_of_exec rfl⟩⟩

/-! ### AND, XOR and OR (R107, R136 to R147) -/

theorem putsLogical_of_exec {i : Instr} {s : State} {res : Byte}
    (h : exec i s = .next ((s.accumulate (logic8 res)).advance i.length)) : PutsLogical i s res := by
  have hw := WritesFlags.accumulate_advance s (logic8 res) i.length
  exact ⟨_, h, onlyAccumulatorChanges_accumulate _ _ _, rfl, hw.flag_of_some rfl,
    hw.flag_of_some rfl, hw.signZeroOf rfl rfl, hw.flag_p_iff_evenParity rfl⟩

/-- Settles O23: each form accumulates `logic8` of the bitwise result. -/
theorem logicalOperationsCompute : Obligations.LogicalOperationsCompute := fun _ =>
  ⟨⟨fun _ => putsLogical_of_exec rfl, putsLogical_of_exec rfl, fun _ => putsLogical_of_exec rfl,
      fun _ _ => putsLogical_of_exec rfl⟩,
    ⟨fun _ => putsLogical_of_exec rfl, putsLogical_of_exec rfl, fun _ => putsLogical_of_exec rfl,
      fun _ _ => putsLogical_of_exec rfl⟩,
    ⟨fun _ => putsLogical_of_exec rfl, putsLogical_of_exec rfl, fun _ => putsLogical_of_exec rfl,
      fun _ _ => putsLogical_of_exec rfl⟩⟩

/-! ### INC and DEC (R108, R109, R152 to R157) -/

/-- INC8 (`true`) or DEC8 (`false`), named together because their claims are. -/
def step8 : Bool → Variant → Byte → Byte × FlagSet
  | true => inc8
  | false => dec8

theorem inc8_fst (v : Variant) (x : Byte) : (inc8 v x).1 = x + 1 :=
  BitVec.eq_of_toNat_eq (by rw [BitVec.toNat_add]; exact toNat_add8 v x 1 false)

theorem dec8_fst (v : Variant) (x : Byte) : (dec8 v x).1 = x - 1 := by
  have hdiff : ((dec8 v x).1.toNat : Int) = ((x.toNat : Int) - 1 - 0) % 256 := toNat_sub8 v x 1 false
  bv_omega

/-- An increment overflows from the largest signed byte alone. -/
theorem overflowAdd_inc8 (v : Variant) (x : Byte) :
    overflowAdd x 1 (inc8 v x).1 = decide (x = 0x7F) := by
  have hx := x.isLt
  have hfits : ¬ FitsSigned8 (x.toInt + 1 + 0) ↔ x.toNat = 127 := by
    rw [FitsSigned8, toInt_eq]
    split <;> omega
  rw [Bool.eq_iff_iff, decide_eq_true_iff, ← BitVec.toNat_inj]
  exact (overflowAdd_add8 v x 1 false).trans hfits

/-- A decrement overflows from the smallest signed byte alone. -/
theorem overflowSub_dec8 (v : Variant) (x : Byte) :
    overflowSub x 1 (dec8 v x).1 = decide (x = 0x80) := by
  have hx := x.isLt
  have hfits : ¬ FitsSigned8 (x.toInt - 1 - 0) ↔ x.toNat = 128 := by
    rw [FitsSigned8, toInt_eq]
    split <;> omega
  rw [Bool.eq_iff_iff, decide_eq_true_iff, ← BitVec.toNat_inj]
  exact (overflowSub_sub8 v x 1 false).trans hfits

section
variable (up : Bool) (v : Variant) (x : Byte)

theorem step8_fst : (step8 up v x).1 = stepped up x := by
  cases up with
  | false => exact dec8_fst v x
  | true => exact inc8_fst v x

theorem step8_c : (step8 up v x).2.c = none := by
  cases up <;> rfl

theorem step8_s : (step8 up v x).2.s = some ((step8 up v x).1.getLsbD 7) := by
  cases up <;> rfl

theorem step8_z : (step8 up v x).2.z = some ((step8 up v x).1 == 0) := by
  cases up <;> rfl

theorem step8_h : (step8 up v x).2.h =
    some (decide (if up then x.toNat % 16 = 15 else x.toNat % 16 ≠ 0)) := by
  cases up with
  | false =>
    have hborrow : 1 + 0 ≤ x.toNat % 16 ↔ x.toNat % 16 ≠ 0 := by omega
    exact (sub8_h v x 1 false).trans (congrArg some (decide_eq_decide.mpr hborrow))
  | true =>
    have hcarry : 16 ≤ x.toNat % 16 + 1 + 0 ↔ x.toNat % 16 = 15 := by omega
    exact (add8_h v x 1 false).trans (congrArg some (decide_eq_decide.mpr hcarry))

theorem step8_p : (step8 up v x).2.p =
    some (parityOverflow v (decide (x = if up then 0x7F else 0x80)) (step8 up v x).1) := by
  cases up with
  | false =>
    exact congrArg (fun ovf => some (parityOverflow v ovf (dec8 v x).1)) (overflowSub_dec8 v x)
  | true =>
    exact congrArg (fun ovf => some (parityOverflow v ovf (inc8 v x).1)) (overflowAdd_inc8 v x)

end

theorem WritesFlags.stepFlags {s t : State} {up : Bool} {x : Byte}
    (h : WritesFlags s t (step8 up s.variant x).2) : StepFlags s t up x (step8 up s.variant x).1 := by
  refine ⟨h.flag_of_none (step8_c _ _ _), h.signZeroOf (step8_s _ _ _) (step8_z _ _ _),
    h.flag_iff (step8_h _ _ _), ?_⟩
  rw [h.flag_p_eq (step8_p _ _ _)]
  cases t.variant with
  | v85 => exact parity8_iff _
  | vz80 => exact decide_eq_true_iff

@[simp] theorem reg8_setFlags (s : State) (fs : FlagSet) (r : Reg8) :
    (s.setFlags fs).reg8 r = s.reg8 r := by
  cases r <;> rfl

@[simp] theorem reg8_advance (s : State) (n : Nat) (r : Reg8) : (s.advance n).reg8 r = s.reg8 r := by
  cases r <;> rfl

theorem reg8_modifyReg8_of_ne (s : State) {q r : Reg8} (f : Byte → Byte × FlagSet) (h : q ≠ r) :
    (s.modifyReg8 r f).reg8 q = s.reg8 q := by
  rw [State.modifyReg8, reg8_setFlags, reg8_setReg8_of_ne s _ h]

theorem modifyReg8_advance_frame (s : State) (r : Reg8) (f : Byte → Byte × FlagSet) (n : Nat) :
    (s.modifyReg8 r f).advance n = { s.setReg8 r (((s.modifyReg8 r f).advance n).reg8 r) with
      main.f := ((s.modifyReg8 r f).advance n).main.f
      pc := s.pc + BitVec.ofNat 16 n } := by
  cases r <;> rfl

theorem stepsRegister_of_exec {i : Instr} {s : State} {r : Reg8} {up : Bool}
    (h : exec i s = .next ((s.modifyReg8 r (step8 up s.variant)).advance i.length)) :
    StepsRegister i s r up := by
  refine ⟨_, h, ?_, ?_, modifyReg8_advance_frame _ _ _ _, fun q hq => ?_⟩
  · rw [reg8_advance, reg8_modifyReg8_self, step8_fst]
  · rw [reg8_advance, reg8_modifyReg8_self]
    exact (WritesFlags.modifyReg8_advance _ _ _ _).stepFlags
  · rw [reg8_advance, reg8_modifyReg8_of_ne s _ hq]

theorem modify8_read8_self (s : State) (addr : Word) (f : Byte → Byte × FlagSet) :
    (s.modify8 addr f).read8 addr = (f (s.read8 addr)).1 := by
  rw [modify8_read8, if_pos rfl]

theorem stepsCell_of_exec {i : Instr} {s : State} {addr : Word} {up : Bool}
    (h : exec i s = .next ((s.modify8 addr (step8 up s.variant)).advance i.length)) :
    StepsCell i s addr up := by
  refine ⟨_, h, ?_, fun a ha => modify8_read8_of_ne s _ ha, ?_, rfl⟩
  · rw [read8_advance, modify8_read8_self, step8_fst]
  · rw [read8_advance, modify8_read8_self]
    exact (WritesFlags.modify8_advance _ _ _ _).stepFlags

/-- Settles O24: each form modifies its register or its cell by `step8`. -/
theorem incAndDecCompute : Obligations.IncAndDecCompute := fun _ =>
  ⟨fun _ => ⟨stepsRegister_of_exec rfl, stepsRegister_of_exec rfl⟩, stepsCell_of_exec rfl,
    stepsCell_of_exec rfl, fun _ _ => ⟨stepsCell_of_exec rfl, stepsCell_of_exec rfl⟩⟩

/-! ### ADD HL,ss and ADD XY,pp (R110, R160, R161) -/

/-- The other bits of F are none of the two a 16-bit addition may write. -/
theorem flagPos_c_h_notMem (v : Variant) :
    flagPos v .c ∉ [1, 2, 3, 5, 6, 7] ∧ flagPos v .h ∉ [1, 2, 3, 5, 6, 7] := by
  cases v <;> decide

theorem WritesFlags.wideSumFlags {s t : State} {a b : Word}
    (h : WritesFlags s t (add16 s.variant a b).2) : WideSumFlags s t a b := by
  refine ⟨h.flag_iff (add16_c _ _ _), fun hv => ?_, fun hv => ?_, fun k hk => ?_⟩
  · rw [hv] at h
    exact h.flag_iff (add16_h_vz80 a b)
  · rw [hv] at h
    exact h.flag_of_none (add16_get_of_unwritten .v85 a b rfl)
  · rw [h.f_eq]
    refine getLsbD_writeFlags_of_unwritten _ fun fl hfl => add16_get_of_unwritten _ _ _ ?_
    obtain ⟨hc, hh⟩ := flagPos_c_h_notMem s.variant
    have hne_c : fl ≠ .c := by
      rintro rfl
      exact hc (hfl ▸ hk)
    have hne_h : fl ≠ .h := by
      rintro rfl
      exact hh (hfl ▸ hk)
    simp [hne_c, hne_h]

/-- Settles O25: the sum and its flags are those of `add16`, written to HL or the index register. -/
theorem wideAdditionsCompute : Obligations.WideAdditionsCompute := by
  intro s
  refine ⟨fun p => ⟨_, rfl, ?_, WritesFlags.wideSumFlags ⟨rfl, rfl⟩, rfl⟩,
    fun x p => ⟨_, rfl, ?_, WritesFlags.wideSumFlags ?_, ?_⟩⟩
  · exact (congrArg BitVec.toNat (hl_setHL s _)).trans (toNat_add16 s.variant _ _)
  · cases x <;> exact toNat_add16 s.variant _ _
  · cases x <;> exact ⟨rfl, rfl⟩
  · cases x <;> rfl

/-! ### CPL (R111, R170) -/

/-- Settles O27: `cpl8` is the bitwise complement. -/
theorem complementIsAnInvolution : Obligations.ComplementIsAnInvolution :=
  fun _ => ⟨_, _, rfl, rfl, rfl, BitVec.toNat_not, BitVec.not_not⟩

/-! ### DAA (R112, R171) -/

/-- The correction `daa8` adds to the low digit. -/
def lowCorrection (a : Byte) (h : Bool) : Nat := if 9 < a.toNat % 16 ∨ h = true then 6 else 0

/-- The correction `daa8` adds to the high digit after the low one is corrected. -/
def highCorrection (a : Byte) (h c : Bool) : Nat :=
  if 9 < (a.toNat + lowCorrection a h) % 256 / 16 ∨ c = true ∨ 256 ≤ a.toNat + lowCorrection a h
  then 0x60 else 0

/-- `daa8` tests the carry of the first correction as a Boolean. -/
theorem highCorrection_eq (a : Byte) (h c : Bool) :
    (if 9 < (a.toNat + lowCorrection a h) % 256 / 16 ∨ c = true ∨
      decide (256 ≤ a.toNat + lowCorrection a h) = true then 0x60 else 0) = highCorrection a h c :=
  if_congr (by rw [decide_eq_true_iff]) rfl rfl

theorem daa8_fst (a : Byte) (h c : Bool) : (daa8 a h c).1 =
    BitVec.ofNat 8 ((a.toNat + lowCorrection a h) % 256 + highCorrection a h c) := by
  rw [← highCorrection_eq]
  rfl

theorem daa8_c (a : Byte) (h c : Bool) : (daa8 a h c).2.c =
    some (decide (c = true ∨ 256 ≤ a.toNat + lowCorrection a h ∨
      256 ≤ (a.toNat + lowCorrection a h) % 256 + highCorrection a h c)) := by
  have hor : (daa8 a h c).2.c = some (c || decide (256 ≤ a.toNat + lowCorrection a h) ||
      decide (256 ≤ (a.toNat + lowCorrection a h) % 256 + highCorrection a h c)) := by
    rw [← highCorrection_eq]
    rfl
  rw [hor, Bool.decide_or, Bool.decide_or, Bool.decide_eq_true, Bool.or_assoc]

theorem toNat_daa8 (a : Byte) (h c : Bool) : (daa8 a h c).1.toNat =
    (a.toNat + lowCorrection a h + highCorrection a h c) % 256 := by
  rw [daa8_fst, BitVec.toNat_ofNat, Nat.mod_add_mod]

/-- Settles O28: the two corrections are those of `daa8`. -/
theorem decimalAdjustComputes : Obligations.DecimalAdjustComputes := by
  intro s
  have hw := WritesFlags.accumulate_advance s (daa8 s.main.a (s.flag .h) (s.flag .c)) 1
  exact ⟨_, rfl, onlyAccumulatorChanges_accumulate _ _ _, hw.flag_of_none rfl,
    hw.signZeroOf rfl rfl, hw.flag_p_iff_evenParity rfl, lowCorrection s.main.a (s.flag .h),
    highCorrection s.main.a (s.flag .h) (s.flag .c), rfl, rfl, toNat_daa8 _ _ _,
    hw.flag_iff (daa8_c _ _ _)⟩

/-! ### ADC then DAA (R112, D11) -/

/-- The corrections of R112 turn a sum of decimal digits, `L` in the low place with the incoming carry
and `H` in the high one, into its decimal digits and its hundreds. -/
theorem decimal_correction {H L x low high : Nat} {h c : Bool} (hL : L ≤ 19) (hH : H ≤ 18)
    (hx : x = (16 * H + L) % 256) (hh : h = true ↔ 16 ≤ L) (hc : c = true ↔ 256 ≤ 16 * H + L)
    (hlow : low = if 9 < x % 16 ∨ h = true then 6 else 0)
    (hhigh : high = if 9 < (x + low) % 256 / 16 ∨ c = true ∨ 256 ≤ x + low then 0x60 else 0) :
    (x + low + high) % 256 = 16 * ((H + L / 10) % 10) + L % 10 ∧
      ((c = true ∨ 256 ≤ x + low ∨ 256 ≤ (x + low) % 256 + high) ↔ 10 ≤ H + L / 10) := by
  have hlow' : low = if 10 ≤ L then 6 else 0 := by
    rw [hlow]
    refine if_congr ?_ rfl rfl
    rw [hh]
    omega
  have hdigits : 16 * H + L + low = 16 * (H + L / 10) + L % 10 := by
    rw [hlow']
    split <;> omega
  have hK : H + L / 10 ≤ 19 := by omega
  have hD : L % 10 ≤ 9 := by omega
  generalize H + L / 10 = K at *
  generalize L % 10 = D at *
  have hmod : (x + low) % 256 = (16 * K + D) % 256 := by rw [hx, Nat.mod_add_mod, hdigits]
  have hcarry : c = true ∨ 256 ≤ x + low ↔ 16 ≤ K := by
    rw [hc]
    omega
  have hhigh' : high = if 10 ≤ K then 0x60 else 0 := by
    rw [hhigh, hmod]
    refine if_congr ?_ rfl rfl
    rw [hcarry]
    omega
  rw [← or_assoc, hcarry, ← Nat.mod_add_mod, hmod, hhigh']
  split <;> omega

/-- Settles O29: ADC adds the digits of each place, and DAA corrects both sums. -/
theorem decimalAdditionIsExact : Obligations.DecimalAdditionIsExact := by
  rintro s n ⟨ha, ha'⟩ ⟨hn, hn'⟩
  have hadc : Adds (.adcN n) s n (s.flag .c) := adds_of_exec rfl
  obtain ⟨t, ht, -, hsum, htc, hth, -, -⟩ := hadc
  obtain ⟨u, hu, -, -, -, -, low, high, hlow, hhigh, hres, huc⟩ := decimalAdjustComputes t
  have hcin : (s.flag .c).toNat ≤ 1 := Bool.toNat_le _
  have hplaces : s.main.a.toNat + n.toNat + (s.flag .c).toNat =
      16 * (s.main.a.toNat / 16 + n.toNat / 16) +
        (s.main.a.toNat % 16 + n.toNat % 16 + (s.flag .c).toNat) := by omega
  rw [hplaces] at hsum htc
  obtain ⟨hdigits, hhundreds⟩ :=
    decimal_correction (by omega) (by omega) hsum hth htc hlow hhigh
  rw [hdigits] at hres
  refine ⟨t, u, ht, hu, ?_, ?_, ?_⟩
  · unfold IsBcd
    omega
  · unfold bcdValue
    omega
  · rw [huc, hhundreds]
    unfold bcdValue
    omega

/-! ### Chains over two bytes (R113 (f), R166) -/

/-- Adding in base 256: the low place hands its carry `c` to the high one, whose carry is `d`. -/
theorem add_in_places {w lo hi t u : Nat} {c d : Bool} (hlo : lo < 256)
    (ht : t = (w % 256 + lo) % 256) (hc : c = true ↔ 256 ≤ w % 256 + lo)
    (hu : u = (w / 256 + hi + c.toNat) % 256) (hd : d = true ↔ 256 ≤ w / 256 + hi + c.toNat) :
    256 * u + t = (w + (256 * hi + lo)) % 65536 ∧ (d = true ↔ 65536 ≤ w + (256 * hi + lo)) := by
  rw [hd, hu, ht]
  cases c with
  | false =>
    have hnone : w % 256 + lo < 256 := by simpa using hc
    rw [Bool.toNat_false]
    omega
  | true =>
    have hone : 256 ≤ w % 256 + lo := hc.mp rfl
    rw [Bool.toNat_true]
    omega

/-- Subtracting in base 256: the low place borrows `c` from the high one, whose borrow is `d`. -/
theorem sub_in_places {w lo hi : Nat} {t u : Int} {c d : Bool} (hlo : lo < 256)
    (ht : t = ((w % 256 : Nat) - lo : Int) % 256) (hc : c = true ↔ w % 256 < lo)
    (hu : u = ((w / 256 : Nat) - hi - c.toNat : Int) % 256)
    (hd : d = true ↔ w / 256 < hi + c.toNat) :
    256 * u + t = (w - (256 * hi + lo) : Int) % 65536 ∧ (d = true ↔ w < 256 * hi + lo) := by
  rw [hd, hu, ht]
  cases c with
  | false =>
    have hnone : lo ≤ w % 256 := by simpa using hc
    rw [Bool.toNat_false]
    omega
  | true =>
    have hone : w % 256 < lo := hc.mp rfl
    rw [Bool.toNat_true]
    omega

theorem eq_sub_of_toNat_eq {x y z : Word} (h : (x.toNat : Int) = (y.toNat - z.toNat : Int) % 65536) :
    x = y - z := by
  bv_omega

/-- Settles O30: the second byte takes in the carry or borrow of the first. -/
theorem byteChainsGiveWideSums : Obligations.ByteChainsGiveWideSums := by
  intro s lo hi w ha
  have hadd : Adds (.addN lo) s lo false := adds_of_exec rfl
  obtain ⟨t, ht, -, htsum, htc, -⟩ := hadd
  have hadc : Adds (.adcN hi) { t with main.a := high8 w } hi (t.flag .c) := adds_of_exec rfl
  obtain ⟨u, hu, -, husum, huc, -⟩ := hadc
  have hsub : Subtracts (.subN lo) s lo false := subtracts_of_exec rfl
  obtain ⟨t', ht', -, htdiff, ⟨htc', -⟩⟩ := hsub
  have hsbc : Subtracts (.sbcN hi) { t' with main.a := high8 w } hi (t'.flag .c) :=
    subtracts_of_exec rfl
  obtain ⟨u', hu', -, hudiff, ⟨huc', -⟩⟩ := hsbc
  rw [ha, toNat_low8, Bool.toNat_false, Nat.add_zero] at htsum htc
  rw [ha, toNat_low8, Bool.toNat_false, Nat.cast_zero, sub_zero] at htdiff
  rw [ha, toNat_low8, Bool.toNat_false, Nat.add_zero] at htc'
  rw [toNat_high8] at husum huc hudiff huc'
  obtain ⟨hsum, hcarry⟩ := add_in_places lo.isLt htsum htc husum huc
  obtain ⟨hdiff, hborrow⟩ := sub_in_places lo.isLt htdiff htc' hudiff huc'
  rw [← toNat_joinBytes u.main.a t.main.a, ← toNat_joinBytes hi lo] at hsum
  rw [← toNat_joinBytes hi lo] at hcarry hborrow
  have hjoin : ((joinBytes u'.main.a t'.main.a).toNat : Int) =
      (w.toNat - (joinBytes hi lo).toNat : Int) % 65536 := by
    rw [toNat_joinBytes, toNat_joinBytes]
    exact_mod_cast hdiff
  exact ⟨t, u, t', u', ht, hu, hsum, hcarry, ht', hu', eq_sub_of_toNat_eq hjoin, hborrow⟩

/-! ### Laws of the ALU functions (R113 (c), (d)) -/

/-- Settles O31: C as `add8_c` and `sub8_c` have it, and INC8 and DEC8 are `+ 1` and `- 1`. -/
theorem byteArithmeticLaws : Obligations.ByteArithmeticLaws := by
  intro v a b x
  refine ⟨?_, ?_, ?_, ?_⟩
  · rw [add8_c, Option.some_inj, decide_eq_true_iff]
    rfl
  · rw [sub8_c, Option.some_inj, decide_eq_true_iff]
    rfl
  · rw [inc8_fst, dec8_fst, BitVec.sub_add_cancel]
  · rw [dec8_fst, inc8_fst, BitVec.add_sub_cancel]

end Sys2Proof.Machine
end

section
/-! PROOFS. The 8-bit registers an instruction does not write (10_state.md R21, R22;
41_alu_instructions.md R116, R118): what each shared operation leaves of them, and from it the frame
of every instruction. -/

namespace Sys2Proof.Machine

/-! ### Operations that write no 8-bit register -/

/-- Two states with the same bank agree on every 8-bit register. -/
theorem reg8_congr {s t : State} (h : t.main = s.main) (r : Reg8) : t.reg8 r = s.reg8 r := by
  unfold State.reg8
  rw [h]

section
variable (s : State) (r : Reg8)

@[simp] theorem reg8_jump (target : Word) : (s.jump target).reg8 r = s.reg8 r := reg8_congr rfl r

@[simp] theorem reg8_write8 (addr : Word) (v : Byte) : (s.write8 addr v).reg8 r = s.reg8 r :=
  reg8_congr rfl r

@[simp] theorem reg8_write16 (addr w : Word) : (s.write16 addr w).reg8 r = s.reg8 r :=
  reg8_congr rfl r

@[simp] theorem reg8_modify8 (addr : Word) (f : Byte → Byte × FlagSet) :
    (s.modify8 addr f).reg8 r = s.reg8 r :=
  (reg8_setFlags _ _ r).trans (reg8_write8 s r addr _)

@[simp] theorem reg8_setIndex (x : IndexReg) (w : Word) : (s.setIndex x w).reg8 r = s.reg8 r :=
  reg8_congr (setIndex_main s x w) r

@[simp] theorem reg8_push16 (w : Word) : (s.push16 w).reg8 r = s.reg8 r := reg8_congr rfl r

@[simp] theorem reg8_pop16 : s.pop16.2.reg8 r = s.reg8 r := reg8_congr rfl r

@[simp] theorem reg8_callTo (target : Word) : (s.callTo target).reg8 r = s.reg8 r := reg8_congr rfl r

@[simp] theorem reg8_returnToCaller : s.returnToCaller.reg8 r = s.reg8 r := reg8_congr rfl r

@[simp] theorem reg8_halted : State.reg8 { s with run := .halted } r = s.reg8 r := reg8_congr rfl r

@[simp] theorem reg8_portCompleted (e : PortEvent) : (s.portCompleted e).reg8 r = s.reg8 r :=
  reg8_congr rfl r

end

/-! ### Operations that write one register or a pair -/

section
variable (s : State) {r : Reg8}

theorem reg8_accumulate_of_ne (q : Byte × FlagSet) (h : r ≠ .a) :
    (s.accumulate q).reg8 r = s.reg8 r := by
  rw [State.accumulate, reg8_setFlags, reg8_setReg8_of_ne s _ h]

theorem reg8_setAF_of_ne (w : Word) (h : r ≠ .a) : (s.setAF w).reg8 r = s.reg8 r := by
  cases r with
  | a => exact absurd rfl h
  | _ => rfl

/-- A pair is written half by half (R22). -/
theorem reg8_setReg8_setReg8_of_ne {p q : Reg8} (v w : Byte) (h : (r == p || r == q) = false) :
    ((s.setReg8 p v).setReg8 q w).reg8 r = s.reg8 r := by
  obtain ⟨hp, hq⟩ := Bool.or_eq_false_iff.mp h
  rw [reg8_setReg8_of_ne _ _ (ne_of_beq_false hq), reg8_setReg8_of_ne _ _ (ne_of_beq_false hp)]

theorem reg8_setBC_of_ne (w : Word) (h : (r == .b || r == .c) = false) :
    (s.setBC w).reg8 r = s.reg8 r :=
  reg8_setReg8_setReg8_of_ne s (high8 w) (low8 w) h

theorem reg8_setDE_of_ne (w : Word) (h : (r == .d || r == .e) = false) :
    (s.setDE w).reg8 r = s.reg8 r :=
  reg8_setReg8_setReg8_of_ne s (high8 w) (low8 w) h

theorem reg8_setHL_of_ne (w : Word) (h : (r == .h || r == .l) = false) :
    (s.setHL w).reg8 r = s.reg8 r :=
  reg8_setReg8_setReg8_of_ne s (high8 w) (low8 w) h

theorem reg8_setPair_of_not_holds {p : Pair} (w : Word) (h : pairHolds p r = false) :
    (s.setPair p w).reg8 r = s.reg8 r := by
  cases p with
  | bc => exact reg8_setBC_of_ne s w h
  | de => exact reg8_setDE_of_ne s w h
  | hl => exact reg8_setHL_of_ne s w h
  | sp => exact reg8_congr rfl r

theorem reg8_setStackPair_of_not_holds {q : StackPair} (w : Word) (h : stackPairHolds q r = false) :
    (s.setStackPair q w).reg8 r = s.reg8 r := by
  cases q with
  | bc => exact reg8_setBC_of_ne s w h
  | de => exact reg8_setDE_of_ne s w h
  | hl => exact reg8_setHL_of_ne s w h

end

/-! ### The frame of every instruction -/

/-- Each instruction is one operation on its destination, whose own law says that the other registers
stay, followed by a move of PC; the block transfers write all but A, and EXSH writes all. -/
theorem exec_reg8_of_not_mayWrite {i : Instr} {s t : State} {r : Reg8} (h : exec i s = .next t)
    (hr : mayWriteReg8 i r = false) : t.reg8 r = s.reg8 r := by
  cases i with
  | exsh => cases hr
  | addR _ | addAtHL | addN _ | addAtXYd _ _ | adcR _ | adcAtHL | adcN _ | adcAtXYd _ _
  | subR _ | subAtHL | subN _ | subAtXYd _ _ | sbcR _ | sbcAtHL | sbcN _ | sbcAtXYd _ _
  | andR _ | andAtHL | andN _ | andAtXYd _ _ | xorR _ | xorAtHL | xorN _ | xorAtXYd _ _
  | orR _ | orAtHL | orN _ | orAtXYd _ _ | daa =>
    cases h
    rw [reg8_advance, reg8_accumulate_of_ne s _ (ne_of_beq_false hr)]
  | cpl | ldRR _ _ | ldRAtHL _ | ldRN _ _ | ldAAtBC | ldAAtDE | ldAAtNN _ | ldRAtXYd _ _ _ =>
    cases h
    rw [reg8_advance, reg8_setReg8_of_ne s _ (ne_of_beq_false hr)]
  | incR _ | decR _ =>
    cases h
    rw [reg8_advance, reg8_modifyReg8_of_ne s _ (ne_of_beq_false hr)]
  | incSS _ | decSS _ | ldDDNN _ _ =>
    cases h
    rw [reg8_advance, reg8_setPair_of_not_holds s _ hr]
  | addHLSS _ =>
    cases h
    rw [reg8_advance, reg8_setFlags, reg8_setHL_of_ne s _ hr]
  | ldHLAtNN _ =>
    cases h
    rw [reg8_advance, reg8_setHL_of_ne s _ hr]
  | popQQ _ =>
    cases h
    rw [reg8_advance, reg8_setStackPair_of_not_holds _ _ hr, reg8_pop16]
  | popAF =>
    cases h
    rw [reg8_advance, reg8_setAF_of_ne _ _ (ne_of_beq_false hr), reg8_pop16]
  | ldi | ldd | ldir | lddr =>
    cases h
    obtain rfl : r = .a := by simpa [mayWriteReg8] using hr
    simp [State.reg8]
  | inAN n =>
    obtain ⟨v, -, rfl⟩ := execInAN_next h
    rw [reg8_advance, reg8_setReg8_of_ne _ _ (ne_of_beq_false hr), reg8_portCompleted]
  | outNA n =>
    obtain ⟨v, -, rfl⟩ := execOutNA_next h
    simp
  | jpCCNN cc nn | callCCNN cc nn | retCC cc =>
    cases h
    split <;> simp
  | _ =>
    cases h
    simp

/-- Settles O18, by the case split over the instructions. -/
theorem otherRegistersStay : Obligations.OtherRegistersStay :=
  fun _ _ _ _ => exec_reg8_of_not_mayWrite

end Sys2Proof.Machine
end

section
/-! PROOFS. The 8-bit loads and stores (42_moves_addressing.md R187 to R198, R201, R202). -/

namespace Sys2Proof.Machine

theorem setReg8_advance (s : State) (r : Reg8) (v : Byte) (n : Nat) :
    (s.setReg8 r v).advance n = { s.setReg8 r v with pc := s.pc + BitVec.ofNat 16 n } := by
  rw [← setReg8_pc s r v]
  rfl

theorem loadsByte_of_exec {i : Instr} {s : State} {r : Reg8} {v : Byte}
    (h : exec i s = .next ((s.setReg8 r v).advance i.length)) : LoadsByte i s r v := by
  refine ⟨_, h, ?_, fun q hq => ?_, setReg8_advance s r v i.length⟩
  · rw [reg8_advance, reg8_setReg8_self]
  · rw [reg8_advance, reg8_setReg8_of_ne s v hq]

theorem storesByte_of_exec {i : Instr} {s : State} {addr : Word} {v : Byte}
    (h : exec i s = .next ((s.write8 addr v).advance i.length)) : StoresByte i s addr v := by
  refine ⟨_, h, ?_, fun a ha => ?_, rfl⟩
  · rw [read8_advance, read8_write8_self]
  · rw [read8_advance, read8_write8_of_ne s v ha]

/-- Settles O34: each form is one `write8` and a move of PC. -/
theorem byteStoresComplete : Obligations.ByteStoresComplete := fun _ =>
  ⟨fun _ => storesByte_of_exec rfl, fun _ => storesByte_of_exec rfl, storesByte_of_exec rfl,
    storesByte_of_exec rfl, fun _ => storesByte_of_exec rfl, fun _ _ _ => storesByte_of_exec rfl⟩

/-- Settles O32: each form is one `setReg8`, of a byte read from the old state, and a move of PC. -/
theorem byteLoadsComplete : Obligations.ByteLoadsComplete := fun _ =>
  ⟨fun _ _ => loadsByte_of_exec rfl, fun _ => loadsByte_of_exec rfl,
    fun _ _ => loadsByte_of_exec rfl, loadsByte_of_exec rfl, loadsByte_of_exec rfl,
    fun _ => loadsByte_of_exec rfl, fun _ _ _ => loadsByte_of_exec rfl⟩

end Sys2Proof.Machine
end

section
/-! PROOFS. The driver's two calls (43_dispatch_control.md R220, R225, R233): what `step()` returns, and
`run` as the repetition of it. -/

namespace Sys2Proof.Machine

/-- Settles O7: the bytes of the statement are the ones a fetch reads. -/
theorem stepRunsTheDecodedInstruction : Obligations.StepRunsTheDecodedInstruction :=
  fun _ _ => step_ok

namespace Driver

/-! ### `step()` -/

theorem step_of_next {s t : State} (h : Machine.step s = .next t) :
    step s = some (t, if t.run = .halted then .halted else .running) := by
  rw [step, h]

theorem step_of_portBlocked {s : State} (h : Machine.step s = .fault .portBlocked) :
    step s = none := by
  rw [step, h]

theorem step_of_halted {s : State} (h : s.run = .halted) : step s = some (s, .halted) := by
  rw [step_of_next (step_halted h), if_pos h]

/-! ### `run`, one lemma for each of its branches -/

theorem run_zero (s : State) :
    run 0 s = some (s, if s.run = .halted then .halted else .budgetExhausted, 0) := rfl

theorem run_of_halted {s : State} (k : Nat) (h : s.run = .halted) : run k s = some (s, .halted, 0) := by
  cases k with
  | zero => rw [run_zero, if_pos h]
  | succ k => rw [run, if_pos h]

section
variable {s : State} (k : Nat) (hr : s.run = .running)
include hr

theorem ne_halted_of_running : s.run ≠ .halted := by
  rw [hr]
  decide

theorem run_zero_of_running : run 0 s = some (s, .budgetExhausted, 0) := by
  rw [run_zero, if_neg (ne_halted_of_running hr)]

theorem run_succ_of_step_none (h : step s = none) : run (k + 1) s = none := by
  rw [run, if_neg (ne_halted_of_running hr), h]

theorem run_succ_of_step_error {t : State} {e : Fault} (h : step s = some (t, .error e)) :
    run (k + 1) s = some (t, .error e, 1) := by
  rw [run, if_neg (ne_halted_of_running hr), h]

theorem run_succ_of_step {t : State} {o : StepOutcome} (h : step s = some (t, o))
    (ho : ∀ e, o ≠ .error e) :
    run (k + 1) s = (run k t).map fun (u, q, n) => (u, q, n + 1) := by
  rw [run, if_neg (ne_halted_of_running hr), h]
  cases o with
  | error e => exact absurd rfl (ho e)
  | running | halted => rfl

end

/-! ### How a run ends -/

/-- `RunsTo k s t o n`: a run of `s` with budget `k` ends in `t` with outcome `o` after `n` steps,
one constructor for each way R225's loop can go. -/
inductive RunsTo : Nat → State → State → RunOutcome → Nat → Prop where
  | halted {k : Nat} {s : State} (hr : s.run = .halted) : RunsTo k s s .halted 0
  | exhausted {s : State} (hr : s.run = .running) : RunsTo 0 s s .budgetExhausted 0
  | error {k : Nat} {s t : State} {e : Fault} (hr : s.run = .running)
      (hs : step s = some (t, .error e)) : RunsTo (k + 1) s t (.error e) 1
  | next {k n : Nat} {s u t : State} {p : StepOutcome} {o : RunOutcome} (hr : s.run = .running)
      (hs : step s = some (u, p)) (hp : ∀ e, p ≠ .error e) (rest : RunsTo k u t o n) :
      RunsTo (k + 1) s t o (n + 1)

theorem runsTo_of_run {k n : Nat} {s t : State} {o : RunOutcome} (h : run k s = some (t, o, n)) :
    RunsTo k s t o n := by
  induction k generalizing s n with
  | zero =>
    cases hr : s.run with
    | halted =>
      cases (run_of_halted 0 hr).symm.trans h
      exact .halted hr
    | running =>
      cases (run_zero_of_running hr).symm.trans h
      exact .exhausted hr
  | succ k ih =>
    cases hr : s.run with
    | halted =>
      cases (run_of_halted (k + 1) hr).symm.trans h
      exact .halted hr
    | running =>
      rcases hs : step s with _ | ⟨u, p⟩
      · cases (run_succ_of_step_none k hr hs).symm.trans h
      · by_cases hp : ∃ e, p = .error e
        · obtain ⟨e, rfl⟩ := hp
          cases (run_succ_of_step_error k hr hs).symm.trans h
          exact .error hr hs
        · have hne : ∀ e, p ≠ .error e := not_exists.mp hp
          rw [run_succ_of_step k hr hs hne, Option.map_eq_some_iff] at h
          obtain ⟨_, hrest, heq⟩ := h
          cases heq
          exact .next hr hs hne (ih hrest)

theorem driverSteps_succ_of_step {s t : State} {o : StepOutcome} (n : Nat)
    (h : step s = some (t, o)) : driverSteps (n + 1) s = driverSteps n t := by
  rw [driverSteps, h]

namespace RunsTo

variable {k n : Nat} {s t : State} {o : RunOutcome}

theorem count_le (h : RunsTo k s t o n) : n ≤ k := by
  induction h with
  | halted | exhausted => exact Nat.zero_le _
  | error => exact Nat.succ_le_succ (Nat.zero_le _)
  | next _ _ _ _ ih => exact Nat.succ_le_succ ih

theorem driverSteps_eq (h : RunsTo k s t o n) : driverSteps n s = some t := by
  induction h with
  | halted | exhausted => rfl
  | error _ hs => exact driverSteps_succ_of_step 0 hs
  | next _ hs _ _ ih => exact (driverSteps_succ_of_step _ hs).trans ih

theorem run_eq_halted (h : RunsTo k s t o n) (ho : o = .halted) : t.run = .halted := by
  induction h with
  | halted hr => exact hr
  | exhausted | error => cases ho
  | next _ _ _ _ ih => exact ih ho

theorem of_budgetExhausted (h : RunsTo k s t o n) (ho : o = .budgetExhausted) :
    n = k ∧ t.run = .running := by
  induction h with
  | halted | error => cases ho
  | exhausted hr => exact ⟨rfl, hr⟩
  | next _ _ _ _ ih =>
    obtain ⟨hn, ht⟩ := ih ho
    exact ⟨congrArg (· + 1) hn, ht⟩

/-- The last step of a run that an error ends is the one that raises it. -/
theorem last_step_of_error {e : Fault} (h : RunsTo k s t o n) (ho : o = .error e) :
    ∃ m u, n = m + 1 ∧ driverSteps m s = some u ∧ step u = some (t, .error e) := by
  induction h with
  | halted | exhausted => cases ho
  | error _ hs =>
    cases ho
    exact ⟨0, _, rfl, rfl, hs⟩
  | next _ hs _ _ ih =>
    obtain ⟨m, u, hn, hu, he⟩ := ih ho
    exact ⟨m + 1, u, congrArg (· + 1) hn, (driverSteps_succ_of_step m hs).trans hu, he⟩

/-- A run that used its budget up goes on as a further run from where it stopped (R286). -/
theorem run_add_of_budgetExhausted (h : RunsTo k s t o n) (ho : o = .budgetExhausted) (m : Nat) :
    run (k + m) s = (run m t).map fun (u, q, j) => (u, q, k + j) := by
  induction h with
  | halted | error => cases ho
  | exhausted => simp
  | @next k _ s u t _ _ hr hs hp _ ih =>
    calc run (k + 1 + m) s = run (k + m + 1) s := by rw [Nat.add_right_comm]
      _ = (run (k + m) u).map fun (v, q, j) => (v, q, j + 1) := run_succ_of_step (k + m) hr hs hp
      _ = (run m t).map fun (v, q, j) => (v, q, k + 1 + j) := by
        rw [ih ho, Option.map_map]
        simp only [Function.comp_def, Nat.add_right_comm]

end RunsTo

end Driver

/-- Settles O9: the machine's step is the identity, and the state it returns is HALTED. -/
theorem haltedStepChangesNothing : Obligations.HaltedStepChangesNothing :=
  fun _ h => ⟨step_halted h, Driver.step_of_halted h⟩

/-- Settles O60: the branches of `step()` and of `run` as their own lemmas give them, the end of a run
by induction on how it got there. -/
theorem runIsRepeatedStepping : Obligations.RunIsRepeatedStepping := by
  refine ⟨fun _ _ => Driver.step_of_next, fun _ => Driver.step_of_portBlocked, Driver.run_zero,
    fun k _ => Driver.run_of_halted k,
    fun k _ hr => ⟨Driver.run_succ_of_step_none k hr, fun _ _ => Driver.run_succ_of_step_error k hr,
      fun _ _ => Driver.run_succ_of_step k hr⟩,
    fun k s t o n h => ?_,
    fun _ m _ _ _ h => (Driver.runsTo_of_run h).run_add_of_budgetExhausted rfl m⟩
  have h := Driver.runsTo_of_run h
  refine ⟨h.count_le, h.driverSteps_eq, h.run_eq_halted, h.of_budgetExhausted, fun e ho => ?_⟩
  obtain ⟨m, u, rfl, hu, he⟩ := h.last_step_of_error ho
  exact ⟨Nat.le_add_left 1 m, u, hu, he⟩

end Sys2Proof.Machine
end

section
/-! PROOFS. The program counter, jumps, calls, returns and HALT (43_dispatch_control.md R222 to R235). -/

namespace Sys2Proof.Machine

/-! ### PC after an instruction that is no control transfer (R222, R223) -/

/-- Each meaning ends in `advance` by the length, and no operation before it writes PC; only the two
port instructions have a branch to look at. -/
theorem exec_pc_of_not_isControlTransfer {i : Instr} {s t : State} (h : exec i s = .next t)
    (hi : isControlTransfer i = false) : t.pc = s.pc + BitVec.ofNat 16 i.length := by
  cases i with
  | jpNN | jpCCNN | callNN | callCCNN | ret | retCC => cases hi
  | inAN n =>
    obtain ⟨v, -, rfl⟩ := execInAN_next h
    simp [Instr.length]
  | outNA n =>
    obtain ⟨v, -, rfl⟩ := execOutNA_next h
    simp [Instr.length]
  | _ =>
    cases h
    simp [Instr.length]

/-- Settles O15, by the case split over the instructions. -/
theorem pcAdvancesByTheLength : Obligations.PcAdvancesByTheLength :=
  fun _ _ _ => exec_pc_of_not_isControlTransfer

/-! ### A condition that holds makes the unconditional instruction, one that fails moves PC alone -/

section
variable {s : State} {cc : Cond} (nn : Word)

theorem exec_jpCCNN_of_cond (h : s.cond cc = true) : exec (.jpCCNN cc nn) s = exec (.jpNN nn) s :=
  congrArg Host.Outcome.next (if_pos h)

theorem exec_jpCCNN_of_not_cond (h : s.cond cc = false) :
    exec (.jpCCNN cc nn) s = .next (s.advance 3) :=
  congrArg Host.Outcome.next (if_neg (Bool.eq_false_iff.mp h))

theorem exec_callCCNN_of_cond (h : s.cond cc = true) :
    exec (.callCCNN cc nn) s = exec (.callNN nn) s :=
  congrArg Host.Outcome.next (if_pos h)

theorem exec_callCCNN_of_not_cond (h : s.cond cc = false) :
    exec (.callCCNN cc nn) s = .next (s.advance 3) :=
  congrArg Host.Outcome.next (if_neg (Bool.eq_false_iff.mp h))

theorem exec_retCC_of_cond (h : s.cond cc = true) : exec (.retCC cc) s = exec .ret s :=
  congrArg Host.Outcome.next (if_pos h)

theorem exec_retCC_of_not_cond (h : s.cond cc = false) : exec (.retCC cc) s = .next (s.advance 1) :=
  congrArg Host.Outcome.next (if_neg (Bool.eq_false_iff.mp h))

end

/-- Settles O39: `jump` and `advance` write PC alone. -/
theorem jumpsChangeOnlyPc : Obligations.JumpsChangeOnlyPc :=
  fun _ nn => ⟨rfl, fun _ => exec_jpCCNN_of_cond nn, fun _ => exec_jpCCNN_of_not_cond nn⟩

/-- Settles O43: HALT's meaning writes RUN and moves PC by 1. -/
theorem haltEntersHalted : Obligations.HaltEntersHalted := exec_halt

/-! ### The stack under calls and returns (R228, R230, R261, R262) -/

theorem pushed_push16 (s : State) (w : Word) : Pushed s (s.push16 w) w := by
  have hne : s.sp - 1 ≠ s.sp - 2 := by bv_omega
  refine ⟨push16_sp s w, ?_, ?_, fun a h1 h2 => push16_read8_of_ne s w (not_or.mpr ⟨h1, h2⟩)⟩
  · rw [push16_read8, if_neg hne, if_pos rfl]
  · rw [push16_read8, if_pos rfl]

/-- What was pushed is on top of the stack. -/
theorem Pushed.topOfStack_eq {s t : State} {w : Word} (h : Pushed s t w) : topOfStack t = w := by
  obtain ⟨hsp, hhigh, hlow, -⟩ := h
  have hsp1 : s.sp - 2 + 1 = s.sp - 1 := by bv_omega
  rw [topOfStack, hsp, hsp1, hhigh, hlow, joinBytes_high8_low8]

theorem pushed_callTo (s : State) (target : Word) : Pushed s (s.callTo target) (s.pc + 3) :=
  pushed_push16 s (s.pc + 3)

theorem callTo_frame (s : State) (target : Word) :
    s.callTo target =
      { s with sp := (s.callTo target).sp, mem := (s.callTo target).mem, pc := target } := rfl

theorem returnToCaller_eq (s : State) :
    s.returnToCaller = { s with pc := topOfStack s, sp := s.sp + 2 } := by
  have hsp : s.sp + 1 + 1 = s.sp + 2 := add_one_add_one s.sp
  rw [← hsp]
  rfl

theorem exec_ret (s : State) :
    exec .ret s = .next { s with pc := topOfStack s, sp := s.sp + 2 } :=
  congrArg Host.Outcome.next (returnToCaller_eq s)

/-- Settles O40: the call pushes `next` and jumps, and a condition that holds changes nothing of it. -/
theorem callsPushTheFollowingAddress : Obligations.CallsPushTheFollowingAddress := fun s nn =>
  ⟨⟨_, rfl, pushed_callTo s nn, callTo_frame s nn⟩,
    fun _ h => ⟨_, exec_callCCNN_of_cond nn h, pushed_callTo s nn, callTo_frame s nn⟩,
    fun _ => exec_callCCNN_of_not_cond nn⟩

/-- Settles O41: the return pops PC, and a condition that holds changes nothing of it. -/
theorem returnsPopThePc : Obligations.ReturnsPopThePc := fun s =>
  ⟨exec_ret s, fun _ h => (exec_retCC_of_cond h).trans (exec_ret s),
    fun _ => exec_retCC_of_not_cond⟩

/-- The return goes to what the call pushed, and SP moves down and up by 2. -/
theorem returnToCaller_callTo (s : State) (target : Word) :
    (s.callTo target).returnToCaller =
      { s with mem := (s.callTo target).mem, pc := s.pc + 3 } := by
  obtain ⟨hsp, -⟩ := pushed_callTo s target
  rw [returnToCaller_eq, (pushed_callTo s target).topOfStack_eq, hsp, BitVec.sub_add_cancel]
  rfl

/-- Settles O42: the return reads memory and leaves it as the call left it. -/
theorem returnUndoesCall : Obligations.ReturnUndoesCall := fun s nn =>
  ⟨_, _, rfl, rfl, returnToCaller_callTo s nn,
    fun _ h1 h2 => callTo_read8_of_ne s nn (not_or.mpr ⟨h1, h2⟩)⟩

end Sys2Proof.Machine
end

section
/-! PROOFS. The block transfers (44_block_transfer.md R250 to R257). With at most BC rounds of fuel
`State.blockLoop dir k s` is the state after exactly `k` rounds of BlockStep: round `i` stores to DE moved
`i` times what it finds at HL moved `i` times, and no later round stores there again. -/

namespace Sys2Proof.Machine

/-- Fewer than 65,536 moves never come back to an address. -/
theorem move_iterate_ne (dir : Direction) (w : Word) {i j : Nat} (hij : i < j) (hj : j < 65536) :
    dir.move^[i] w ≠ dir.move^[j] w := by
  cases dir with
  | up =>
    rw [move_up_iterate, move_up_iterate]
    bv_omega
  | down =>
    rw [move_down_iterate, move_down_iterate]
    bv_omega

/-! ### The state after a number of rounds -/

section
variable (dir : Direction) {k : Nat} {s : State}

theorem blockLoop_succ_of_ne (h : s.bc ≠ 0) :
    State.blockLoop dir (k + 1) s = State.blockLoop dir k (s.blockStep dir) := by
  rw [blockLoop_succ, if_neg h]

/-- The last round read off, where `blockLoop_succ` reads off the first. -/
theorem blockLoop_succ_eq_blockStep (h : k < s.bc.toNat) :
    State.blockLoop dir (k + 1) s = (State.blockLoop dir k s).blockStep dir := by
  induction k generalizing s with
  | zero => exact blockLoop_succ_of_ne dir (by bv_omega)
  | succ k ih =>
    have hne : s.bc ≠ 0 := by bv_omega
    have hrest : k < (s.blockStep dir).bc.toNat := by
      rw [blockStep_bc]
      bv_omega
    rw [blockLoop_succ_of_ne dir hne, ih hrest, ← blockLoop_succ_of_ne dir hne]

theorem blockLoop_hl_de_bc (h : k ≤ s.bc.toNat) :
    (State.blockLoop dir k s).hl = dir.move^[k] s.hl ∧
    (State.blockLoop dir k s).de = dir.move^[k] s.de ∧
    (State.blockLoop dir k s).bc = s.bc - BitVec.ofNat 16 k := by
  induction k with
  | zero => exact ⟨rfl, rfl, (BitVec.sub_zero _).symm⟩
  | succ k ih =>
    obtain ⟨hhl, hde, hbc⟩ := ih (Nat.le_of_succ_le h)
    rw [blockLoop_succ_eq_blockStep dir h, Function.iterate_succ_apply', Function.iterate_succ_apply',
      blockStep_hl, blockStep_de, blockStep_bc, hhl, hde, hbc, BitVec.ofNat_add]
    exact ⟨rfl, rfl, BitVec.sub_sub ..⟩

/-- What round `i` stores stays to the end. -/
theorem blockLoop_read8_stored {i : Nat} (hi : i < k) (hk : k ≤ s.bc.toNat) :
    (State.blockLoop dir k s).read8 (dir.move^[i] s.de) =
      (State.blockLoop dir i s).read8 (dir.move^[i] s.hl) := by
  induction k with
  | zero => exact absurd hi (Nat.not_lt_zero i)
  | succ k ih =>
    obtain ⟨hhl, hde, -⟩ := blockLoop_hl_de_bc dir (Nat.le_of_succ_le hk)
    rw [blockLoop_succ_eq_blockStep dir hk, blockStep_read8, hhl, hde]
    obtain hlt | rfl := Nat.lt_succ_iff_lt_or_eq.mp hi
    · rw [if_neg (move_iterate_ne dir s.de hlt (by omega)), ih hlt (Nat.le_of_succ_le hk)]
    · rw [if_pos rfl]

end

/-! ### The whole loop of a repeat form (R253, R254, R256, R257) -/

theorem blockRepeat_hl_de_bc (s : State) (dir : Direction) :
    (s.blockRepeat dir).hl = dir.move^[s.bc.toNat] s.hl ∧
    (s.blockRepeat dir).de = dir.move^[s.bc.toNat] s.de ∧
    (s.blockRepeat dir).bc = 0 := by
  obtain ⟨hhl, hde, hbc⟩ := blockLoop_hl_de_bc dir (Nat.le_refl s.bc.toNat)
  exact ⟨hhl, hde, hbc.trans (by simp)⟩

section
variable (dir : Direction) {s : State}

theorem blockRepeat_of_bc_zero (h : s.bc = 0) : s.blockRepeat dir = s := by
  rw [State.blockRepeat, h]
  rfl

/-- A source cell that no earlier round stored to arrives as it was at the start. -/
theorem blockRepeat_read8_copied {i : Nat} (hi : i < s.bc.toNat)
    (h : ∀ j, j < i → dir.move^[i] s.hl ≠ dir.move^[j] s.de) :
    (s.blockRepeat dir).read8 (dir.move^[i] s.de) = s.read8 (dir.move^[i] s.hl) :=
  (blockLoop_read8_stored dir hi (Nat.le_refl _)).trans (blockLoop_read8_of_ne dir h)

/-- When DE is one move ahead of HL, each round reads what the round before it stored. -/
theorem blockRepeat_read8_filled {i : Nat} (hi : i < s.bc.toNat) (h : s.de = dir.move s.hl) :
    (s.blockRepeat dir).read8 (dir.move^[i] s.de) = s.read8 s.hl := by
  refine (blockLoop_read8_stored dir hi (Nat.le_refl _)).trans ?_
  induction i with
  | zero => rfl
  | succ i ih =>
    rw [Function.iterate_succ_apply, ← h,
      blockLoop_read8_stored dir (Nat.lt_succ_self i) (Nat.le_of_lt hi)]
    exact ih (Nat.lt_of_succ_lt hi)

end

/-! ### The four instructions -/

/-- Settles O48: the loop is not entered. -/
theorem zeroCountRepeatIsANoOp : Obligations.ZeroCountRepeatIsANoOp := fun _ h =>
  ⟨congrArg Host.Outcome.next (congrArg (State.advance · 2) (blockRepeat_of_bc_zero .up h)),
    congrArg Host.Outcome.next (congrArg (State.advance · 2) (blockRepeat_of_bc_zero .down h))⟩

theorem blockStep_read8_de (s : State) (dir : Direction) :
    (s.blockStep dir).read8 s.de = s.read8 s.hl := by
  rw [blockStep_read8, if_pos rfl]

/-- Settles O44: each is one BlockStep and a move of PC. -/
theorem singleTransfersMoveOneByte : Obligations.SingleTransfersMoveOneByte := fun s =>
  ⟨_, _, rfl, rfl,
    blockStep_hl s .up, blockStep_de s .up, blockStep_bc s .up,
    blockStep_hl s .down, blockStep_de s .down, blockStep_bc s .down,
    blockStep_read8_de s .up, blockStep_read8_de s .down,
    fun _ ha => ⟨blockStep_read8_of_ne s .up ha, blockStep_read8_of_ne s .down ha⟩, rfl, rfl⟩

/-- Settles O45: BC rounds move HL and DE by BC, the cells outside the destination are those O20's frame
keeps, and the loop writes neither A, F nor a register beyond the three pairs. -/
theorem repeatTransfersEndInClosedForm : Obligations.RepeatTransfersEndInClosedForm := by
  intro s
  obtain ⟨uhl, ude, ubc⟩ := blockRepeat_hl_de_bc s .up
  obtain ⟨dhl, dde, dbc⟩ := blockRepeat_hl_de_bc s .down
  rw [move_up_iterate, BitVec.ofNat_toNat, BitVec.setWidth_eq] at uhl ude
  rw [move_down_iterate, BitVec.ofNat_toNat, BitVec.setWidth_eq] at dhl dde
  exact ⟨_, _, rfl, rfl, ubc, uhl, ude, dbc, dhl, dde,
    fun _ ha => exec_read8_of_not_storesTo (i := .ldir) rfl fun ⟨k, hk, e⟩ => ha k hk e,
    fun _ ha => exec_read8_of_not_storesTo (i := .lddr) rfl fun ⟨k, hk, e⟩ => ha k hk e,
    congrArg (State.advance · 2) (blockRepeat_frame s .up),
    congrArg (State.advance · 2) (blockRepeat_frame s .down)⟩

/-- Settles O46: no round stores to a source cell. -/
theorem repeatTransfersCopyDisjointBlocks : Obligations.RepeatTransfersCopyDisjointBlocks := by
  unfold Obligations.RepeatTransfersCopyDisjointBlocks
  simp only [← move_up_iterate, ← move_down_iterate]
  constructor
  · rintro s _ ⟨⟩ hdisjoint i hi
    exact blockRepeat_read8_copied .up hi fun j hj => hdisjoint i j hi (hj.trans hi)
  · rintro s _ ⟨⟩ hdisjoint i hi
    exact blockRepeat_read8_copied .down hi fun j hj => hdisjoint i j hi (hj.trans hi)

/-- Settles O47: upward each round reads what the one before it stored; downward a round stores to a cell
already read. -/
theorem overlappingTransfersGoByteByByte : Obligations.OverlappingTransfersGoByteByByte := by
  unfold Obligations.OverlappingTransfersGoByteByByte
  simp only [← move_up_iterate, ← move_down_iterate]
  constructor
  · rintro s _ ⟨⟩ hde i hi
    exact blockRepeat_read8_filled .up hi hde
  · rintro s _ ⟨⟩ hde i hi
    refine blockRepeat_read8_copied .down hi fun j hj => ?_
    rw [move_down_iterate, move_down_iterate, hde]
    bv_omega

end Sys2Proof.Machine
end

section
/-! PROOFS. PUSH and POP (45_stack.md R260 to R269): the word a pop finds decides what each POP does, and
after a push it is the pushed word. -/

namespace Sys2Proof.Machine

/-! ### The stack engine -/

theorem push16_frame (s : State) (w : Word) :
    s.push16 w = { s with sp := s.sp - 2, mem := (s.push16 w).mem } := by
  rw [← push16_sp s w]
  rfl

theorem pop16_eq (s : State) : s.pop16 = (topOfStack s, { s with sp := s.sp + 2 }) := by
  rw [← pop16_sp s]
  rfl

/-- Settles O49: a push is two cells and SP, and a pop is two reads and SP. -/
theorem stackEngineWrapsBothWays : Obligations.StackEngineWrapsBothWays := fun s w =>
  ⟨pushed_push16 s w, push16_frame s w, pop16_eq s⟩

/-! ### PUSH -/

/-- Settles O50: each form is one Push16 and a move of PC. -/
theorem pushesStoreTheirRegister : Obligations.PushesStoreTheirRegister := fun s =>
  ⟨fun q => ⟨_, rfl, pushed_push16 s (s.stackPair q), rfl⟩, ⟨_, rfl, pushed_push16 s s.af, rfl⟩,
    fun x => ⟨_, rfl, pushed_push16 s (s.index x), rfl⟩⟩

/-! ### POP, given what the stack engine returns -/

section
variable {s u : State} {w : Word} (h : s.pop16 = (w, u))
include h

theorem exec_popQQ_of_pop16 (q : StackPair) :
    exec (.popQQ q) s = .next ((u.setStackPair q w).advance 1) :=
  congrArg (fun r : Word × State => Host.Outcome.next ((r.2.setStackPair q r.1).advance 1)) h

theorem exec_popAF_of_pop16 : exec .popAF s = .next ((u.setAF w).advance 1) :=
  congrArg (fun r : Word × State => Host.Outcome.next ((r.2.setAF r.1).advance 1)) h

theorem exec_popXY_of_pop16 (x : IndexReg) :
    exec (.popXY x) s = .next ((u.setIndex x w).advance 2) :=
  congrArg (fun r : Word × State => Host.Outcome.next ((r.2.setIndex x r.1).advance 2)) h

end

@[simp] theorem stackPair_advance (s : State) (n : Nat) (q : StackPair) :
    (s.advance n).stackPair q = s.stackPair q := by
  cases q <;> rfl

theorem stackPair_setStackPair_advance (s : State) (q : StackPair) (w : Word) (n : Nat) :
    ((s.setStackPair q w).advance n).stackPair q = w := by
  rw [stackPair_advance, stackPair_setStackPair_self]

theorem index_setIndex_advance (s : State) (x : IndexReg) (w : Word) (n : Nat) :
    ((s.setIndex x w).advance n).index x = w := by
  rw [index_advance, index_setIndex_self]

theorem setAF_topOfStack (s : State) :
    s.setAF (topOfStack s) = { s with main.f := s.read8 s.sp, main.a := s.read8 (s.sp + 1) } := by
  rw [topOfStack, State.setAF, high8_joinBytes, low8_joinBytes]

/-- Settles O51: each form is one Pop16, a write of its register and a move of PC. -/
theorem popsLoadTheirRegister : Obligations.PopsLoadTheirRegister := by
  intro s
  have hpop := pop16_eq s
  refine ⟨fun q => ⟨_, exec_popQQ_of_pop16 hpop q, stackPair_setStackPair_advance _ q _ 1, ?_⟩, ?_,
    fun x => ⟨_, exec_popXY_of_pop16 hpop x, index_setIndex_advance _ x _ 2, ?_⟩⟩
  · cases q <;> rfl
  · refine (exec_popAF_of_pop16 hpop).trans (congrArg Host.Outcome.next ?_)
    exact congrArg (fun v : State => { v with sp := s.sp + 2, pc := s.pc + 1 }) (setAF_topOfStack s)
  · cases x <;> rfl

/-! ### POP after PUSH -/

/-- A pop after a push and a move of PC returns the pushed word, and SP is as before the push. -/
theorem pop16_advance_push16 (s : State) (w : Word) (n : Nat) :
    ((s.push16 w).advance n).pop16 =
      (w, { s with mem := (s.push16 w).mem, pc := ((s.push16 w).advance n).pc }) := by
  have hpushed : Pushed s ((s.push16 w).advance n) w := pushed_push16 s w
  have hsp : ((s.push16 w).advance n).sp = s.sp - 2 := push16_sp s w
  rw [pop16_eq, hpushed.topOfStack_eq, hsp, BitVec.sub_add_cancel]
  rfl

/-- An instruction that is one push and a move of PC is undone by every form of POP. -/
theorem popsBack_of_exec {i : Instr} {s : State} {w : Word} {n : Nat}
    (h : exec i s = .next ((s.push16 w).advance n)) : PopsBack i s w := by
  have hpop := pop16_advance_push16 s w n
  refine ⟨_, h,
    fun q => ⟨_, exec_popQQ_of_pop16 hpop q, stackPair_setStackPair_advance _ q w 1, ?_⟩,
    exec_popAF_of_pop16 hpop,
    fun x => ⟨_, exec_popXY_of_pop16 hpop x, index_setIndex_advance _ x w 2, ?_⟩⟩
  · cases q <;> rfl
  · cases x <;> rfl

theorem setAF_af (s : State) : s.setAF s.af = s := by
  rw [State.setAF, State.af, high8_joinBytes, low8_joinBytes]

/-- Settles O52: each push is one Push16, and AF loaded with its own value is AF as it was. -/
theorem popUndoesPush : Obligations.PopUndoesPush := fun s =>
  have hmain : (s.setAF s.af).main = s.main := congrArg State.main (setAF_af s)
  ⟨fun _ => popsBack_of_exec rfl, popsBack_of_exec rfl, fun _ => popsBack_of_exec rfl,
    _, _, rfl, exec_popAF_of_pop16 (pop16_advance_push16 s s.af 1), hmain, rfl⟩

end Sys2Proof.Machine
end

section
/-! PROOFS. How a step stops and what the driver then finds (60_exceptions.md R280 to R285): an
instruction completes or the device model stops it, and a DecodeError is of the bytes at PC. -/

namespace Sys2Proof.Machine

/-! ### What stops an instruction -/

/-- The device model's next answer is listed and stops a port call with the fault `f` (R285; log 4,
log 7). -/
def DeviceStops (s : State) (f : Fault) : Prop :=
  (∃ e rest, s.portReplies = .failed e :: rest ∧ f = .portFailure e) ∨
    (∃ rest, s.portReplies = .blocked :: rest ∧ f = .portBlocked)

theorem not_deviceStops_decodeError (s : State) (reason : DecodeReason) :
    ¬ DeviceStops s (.decodeError reason) := by
  rintro (⟨_, _, -, hf⟩ | ⟨_, -, hf⟩) <;> cases hf

theorem portReplies_of_deviceStops_portFailure {s : State} {e : Nat}
    (h : DeviceStops s (.portFailure e)) : ∃ rest, s.portReplies = .failed e :: rest := by
  obtain ⟨_, rest, hreplies, hf⟩ | ⟨_, -, hf⟩ := h
  · cases hf
    exact ⟨rest, hreplies⟩
  · cases hf

/-- Only a listed answer fails or blocks: an empty list answers `ok`. -/
theorem portReply_cases (s : State) (n : Byte) :
    (∃ v, s.portReply n = .ok v) ∨ (∃ e rest, s.portReplies = .failed e :: rest) ∨
      (∃ rest, s.portReplies = .blocked :: rest) := by
  cases h : s.portReplies with
  | nil => exact .inl ⟨_, portReply_nil s n h⟩
  | cons r rest =>
    cases r with
    | ok v => exact .inl ⟨v, portReply_cons s n h⟩
    | failed e => exact .inr (.inl ⟨e, rest, rfl⟩)
    | blocked => exact .inr (.inr ⟨rest, rfl⟩)

/-- An instruction completes, or it is IN or OUT and the device model stops it. -/
theorem exec_cases (i : Instr) (s : State) :
    (∃ t, exec i s = .next t) ∨ (callsDevice i = true ∧ ∃ f, exec i s = .fault f ∧ DeviceStops s f) := by
  cases i with
  | inAN n =>
    obtain ⟨v, hv⟩ | ⟨e, rest, h⟩ | ⟨rest, h⟩ := portReply_cases s n
    · exact .inl ⟨_, execInAN_ok hv⟩
    · exact .inr ⟨rfl, _, execInAN_failed (portReply_cons s n h), .inl ⟨e, rest, h, rfl⟩⟩
    · exact .inr ⟨rfl, _, execInAN_blocked (portReply_cons s n h), .inr ⟨rest, h, rfl⟩⟩
  | outNA n =>
    obtain ⟨v, hv⟩ | ⟨e, rest, h⟩ | ⟨rest, h⟩ := portReply_cases s n
    · exact .inl ⟨_, execOutNA_ok hv⟩
    · exact .inr ⟨rfl, _, execOutNA_failed (portReply_cons s n h), .inl ⟨e, rest, h, rfl⟩⟩
    · exact .inr ⟨rfl, _, execOutNA_blocked (portReply_cons s n h), .inr ⟨rest, h, rfl⟩⟩
  | _ => exact .inl ⟨_, rfl⟩

theorem exec_fault {i : Instr} {s : State} {f : Fault} (h : exec i s = .fault f) :
    callsDevice i = true ∧ DeviceStops s f := by
  obtain ⟨_, ht⟩ | ⟨hi, _, hf, hstops⟩ := exec_cases i s
  · cases ht.symm.trans h
  · cases hf.symm.trans h
    exact ⟨hi, hstops⟩

theorem exec_ne_refused (i : Instr) (s : State) (r : Refusal) : exec i s ≠ .refused r := by
  intro h
  obtain ⟨_, ht⟩ | ⟨-, _, hf, -⟩ := exec_cases i s
  · cases ht.symm.trans h
  · cases hf.symm.trans h

/-! ### What stops a step -/

theorem step_ne_refused (s : State) (r : Refusal) : step s ≠ .refused r := by
  intro h
  obtain ⟨-, hs⟩ | ⟨-, _, -, hs⟩ | ⟨-, i, -, hs⟩ := step_cases s
  · cases hs.symm.trans h
  · cases hs.symm.trans h
  · exact exec_ne_refused i s r (hs.symm.trans h)

/-- A step faults because the bytes at PC are no instruction, or because the device model stops the
instruction they are. -/
theorem step_fault {s : State} {f : Fault} (h : step s = .fault f) :
    (∃ reason, f = .decodeError reason ∧ s.run = .running ∧ s.decodeAtPc = .error reason) ∨
      (∃ i, s.decodeAtPc = .ok i ∧ callsDevice i = true ∧ DeviceStops s f) := by
  obtain ⟨-, hs⟩ | ⟨hr, reason, hd, hs⟩ | ⟨-, i, hd, hs⟩ := step_cases s
  · cases hs.symm.trans h
  · cases hs.symm.trans h
    exact .inl ⟨reason, rfl, hr, hd⟩
  · exact .inr ⟨i, hd, exec_fault (hs.symm.trans h)⟩

theorem step_decodeError {s : State} {reason : DecodeReason}
    (h : step s = .fault (.decodeError reason)) :
    s.run = .running ∧ s.decodeAtPc = .error reason := by
  obtain ⟨_, hf, hr, hd⟩ | ⟨_, -, -, hstops⟩ := step_fault h
  · cases hf
    exact ⟨hr, hd⟩
  · exact absurd hstops (not_deviceStops_decodeError s reason)

theorem step_portFailure {s : State} {e : Nat} (h : step s = .fault (.portFailure e)) :
    ∃ rest, s.portReplies = .failed e :: rest := by
  obtain ⟨_, hf, -, -⟩ | ⟨_, -, -, hstops⟩ := step_fault h
  · cases hf
  · exact portReplies_of_deviceStops_portFailure hstops

/-- Settles O10: only IN and OUT have an outcome other than a next state, and it is a listed answer's. -/
theorem stepStopsOnlyAsTheSpecSays : Obligations.StepStopsOnlyAsTheSpecSays :=
  ⟨step_ne_refused, fun _ _ => step_decodeError, fun _ _ _ => exec_fault⟩

/-! ### What the driver finds after an error (R283, R285) -/

namespace Driver

theorem step_of_decodeError {s : State} {reason : DecodeReason}
    (h : Machine.step s = .fault (.decodeError reason)) :
    step s = some (s, .error (.decodeError reason)) := by
  rw [step, h]

/-- The driver sees a PortFailure only where the machine raises it. -/
theorem step_portFailure {s t : State} {e : Nat} (h : step s = some (t, .error (.portFailure e))) :
    Machine.step s = .fault (.portFailure e) ∧ t = s.portAnswered := by
  unfold step at h
  split at h
  case h_1 =>
    obtain ⟨-, houtcome⟩ := Prod.mk.inj (Option.some.inj h)
    split at houtcome <;> cases houtcome
  case h_3 hs =>
    cases h
    exact ⟨hs, rfl⟩
  all_goals cases h

end Driver

/-- Settles O8: the bytes of the statement are the ones a fetch reads. -/
theorem decodeErrorLeavesTheMachine : Obligations.DecodeErrorLeavesTheMachine := fun _ _ hr hd =>
  have herror := step_error hr hd
  ⟨herror, Driver.step_of_decodeError herror⟩

/-- Settles O55: the failure was the first listed answer, and the driver's state is the old one with that
answer used up. -/
theorem portFailureLeavesTheMachine : Obligations.PortFailureLeavesTheMachine := by
  intro s t e h
  obtain ⟨hs, rfl⟩ := Driver.step_portFailure h
  obtain ⟨rest, hreplies⟩ := step_portFailure hs
  exact ⟨⟨rest, hreplies, congrArg List.tail hreplies⟩, rfl⟩

end Sys2Proof.Machine
end
